-- ==== Sys2Proof/Word.lean ====
section
/-! DEFINITION. The machine's words: bytes, 16-bit halves, 32-bit command words (R100) and 24-bit chip addresses (R60). -/

namespace Sys2Proof

/-- One byte of the chip's address space (R60). -/
abbrev Byte := BitVec 8

/-- A 16-bit half of a touch word (R374). -/
abbrev Half := BitVec 16

/-- A 32-bit command word or register value (R100). -/
abbrev Word := BitVec 32

/-- A 24-bit chip-internal address (R60). -/
abbrev Addr := BitVec 24

end Sys2Proof
end

