-- ==== Sys2Proof/Syntax.lean ====
section
/-! DEFINITION. The operations of the block, one constructor per row of spec/opcode_table.json, and the request that
selects one (R120, R121). Operands are mathematical integers (R12), byte strings and word lists as lists of integers. -/

namespace Sys2Proof

/-- The operations of R120. The docstring of each constructor names its OPSEL and its rule. -/
inductive Instr where
  /-- OPSEL 0x00, DISPLAY, R203. -/
  | display
  /-- OPSEL 0x01, BITMAP_SOURCE, R204. -/
  | bitmapSource (addr : Int)
  /-- OPSEL 0x02, CLEAR_COLOR_RGB, R205. -/
  | clearColorRgb (red green blue : Int)
  /-- OPSEL 0x03, TAG, R206. -/
  | tag (v : Int)
  /-- OPSEL 0x04, COLOR_RGB, R207. -/
  | colorRgb (red green blue : Int)
  /-- OPSEL 0x05, BITMAP_HANDLE, R208. -/
  | bitmapHandle (handle : Int)
  /-- OPSEL 0x06, CELL, R209. -/
  | cell (cellNo : Int)
  /-- OPSEL 0x07, BITMAP_LAYOUT, R210. -/
  | bitmapLayout (format linestride height : Int)
  /-- OPSEL 0x08, BITMAP_SIZE, R211. -/
  | bitmapSize (filter wrapx wrapy width height : Int)
  /-- OPSEL 0x09, ALPHA_FUNC, R212. -/
  | alphaFunc (func ref : Int)
  /-- OPSEL 0x0A, STENCIL_FUNC, R213. -/
  | stencilFunc (func ref mask : Int)
  /-- OPSEL 0x0B, BLEND_FUNC, R214. -/
  | blendFunc (src dst : Int)
  /-- OPSEL 0x0C, STENCIL_OP, R215. -/
  | stencilOp (sfail spass : Int)
  /-- OPSEL 0x0D, POINT_SIZE, R216. -/
  | pointSize (size : Int)
  /-- OPSEL 0x0E, LINE_WIDTH, R217. -/
  | lineWidth (width : Int)
  /-- OPSEL 0x0F, CLEAR_COLOR_A, R218. -/
  | clearColorA (alpha : Int)
  /-- OPSEL 0x10, COLOR_A, R219. -/
  | colorA (alpha : Int)
  /-- OPSEL 0x11, CLEAR_STENCIL, R220. -/
  | clearStencil (v : Int)
  /-- OPSEL 0x12, CLEAR_TAG, R221. -/
  | clearTag (v : Int)
  /-- OPSEL 0x13, STENCIL_MASK, R222. -/
  | stencilMask (mask : Int)
  /-- OPSEL 0x14, TAG_MASK, R223. -/
  | tagMask (mask : Int)
  /-- OPSEL 0x15, BITMAP_TRANSFORM_A, R224. -/
  | bitmapTransformA (a : Int)
  /-- OPSEL 0x16, BITMAP_TRANSFORM_B, R225. -/
  | bitmapTransformB (b : Int)
  /-- OPSEL 0x17, BITMAP_TRANSFORM_C, R226. -/
  | bitmapTransformC (c : Int)
  /-- OPSEL 0x18, BITMAP_TRANSFORM_D, R227. -/
  | bitmapTransformD (d : Int)
  /-- OPSEL 0x19, BITMAP_TRANSFORM_E, R228. -/
  | bitmapTransformE (e : Int)
  /-- OPSEL 0x1A, BITMAP_TRANSFORM_F, R229. -/
  | bitmapTransformF (f : Int)
  /-- OPSEL 0x1B, SCISSOR_XY, R230. -/
  | scissorXy (x y : Int)
  /-- OPSEL 0x1C, SCISSOR_SIZE, R231. -/
  | scissorSize (width height : Int)
  /-- OPSEL 0x1D, CALL, R232. -/
  | call (dest : Int)
  /-- OPSEL 0x1E, JUMP, R233. -/
  | jump (dest : Int)
  /-- OPSEL 0x1F, BEGIN, R234. -/
  | beginPrim (prim : Int)
  /-- OPSEL 0x20, COLOR_MASK, R235. -/
  | colorMask (r g b a : Int)
  /-- OPSEL 0x21, END, R236. -/
  | endPrim
  /-- OPSEL 0x22, SAVE_CONTEXT, R237. -/
  | saveContext
  /-- OPSEL 0x23, RESTORE_CONTEXT, R238. -/
  | restoreContext
  /-- OPSEL 0x24, RETURN, R239. -/
  | returnList
  /-- OPSEL 0x25, MACRO, R240. -/
  | macroWord (m : Int)
  /-- OPSEL 0x26, CLEAR, R241. -/
  | clear (color stencil tagBit : Int)
  /-- OPSEL 0x40, VERTEX2F, R242. -/
  | vertex2f (x y : Int)
  /-- OPSEL 0x41, VERTEX2II, R243. -/
  | vertex2ii (x y handle cellNo : Int)
  /-- OPSEL 0x50, CMD_DLSTART, R252. -/
  | cmdDlstart
  /-- OPSEL 0x51, CMD_SWAP, R253. -/
  | cmdSwap
  /-- OPSEL 0x52, CMD_CALIBRATE, R254. -/
  | cmdCalibrate
  /-- OPSEL 0x53, CMD_TEXT, R256. -/
  | cmdText (x y font options : Int)
  /-- OPSEL 0x54, CMD_BUTTON, R257. -/
  | cmdButton (x y w h font options : Int)
  /-- OPSEL 0x55, CMD_SPINNER, R258. -/
  | cmdSpinner (x y style scale : Int)
  /-- OPSEL 0x60, WRITE_WORD, R304. -/
  | writeWord (w : Int)
  /-- OPSEL 0x61, WRITE_BUFFER, R302. -/
  | writeBuffer (b : List Int)
  /-- OPSEL 0x62, WRITE_STRING_CMD, R305. -/
  | writeStringCmd (h : List Int) (str : List Int)
  /-- OPSEL 0x63, FIFO_EMPTY, R306. -/
  | fifoEmpty
  /-- OPSEL 0x70, INIT_FORCED, R338. -/
  | initForced
  /-- OPSEL 0x71, INIT_PROBE, R340. -/
  | initProbe
  /-- OPSEL 0x80, GET_TOUCH_RAW_XY, R371. -/
  | getTouchRawXy
  /-- OPSEL 0x81, GET_TOUCH_SCREEN_XY, R372. -/
  | getTouchScreenXy
  /-- OPSEL 0x82, GET_TOUCH_TAG, R373. -/
  | getTouchTag
  /-- OPSEL 0x83, GET_TOUCH_TRANSFORM, R376. -/
  | getTouchTransform
  /-- OPSEL 0x84, SET_TOUCH_TRANSFORM, R377. -/
  | setTouchTransform (c0 c1 c2 c3 c4 c5 : Int)
  /-- OPSEL 0x90, BUTTON_POLL, R394. -/
  | buttonPoll
  /-- OPSEL 0x91, DISCARD_ACTIVE_BUTTON, R396. -/
  | discardActiveButton
deriving DecidableEq, Repr

/-- One operand of a request: an integer, a byte string or a list of 32-bit words (R121). -/
inductive Operand where
  | int   (v : Int)
  | bytes (b : List Int)
  | words (h : List Int)
deriving DecidableEq, Repr

/-- The kind of an operand, which a request must match (R121). -/
inductive OperandKind where
  | int | bytes | words
deriving DecidableEq, Repr

/-- The kind of an operand (R121). -/
def Operand.kind : Operand → OperandKind
  | .int _ => .int
  | .bytes _ => .bytes
  | .words _ => .words

/-- What the caller puts on the request port: an operation-select code and an operand list (R8, R121). -/
structure Request where
  opsel    : Byte
  operands : List Operand
deriving DecidableEq, Repr

end Sys2Proof
end

