-- ==== Sys2Proof/WellFormed.lean ====
section
/-! DEFINITION. Well-formed operations: every operand lies within its field (R108 "For all parameter values within field
width"), bytes in 0..255 and header words in 32 bits (R121), at least one header word (R305). The block itself accepts
and masks any integer (R201); well-formedness is what makes decoding give an operation back. -/

namespace Sys2Proof

/-- `p` is a value of an unsigned field of `w` bits. -/
def fitsUnsigned (w : Nat) (p : Int) : Bool := decide (0 ≤ p) && decide (p < 2 ^ w)

/-- `p` is a value of a two's-complement field of `w` bits (R107). -/
def fitsSigned (w : Nat) (p : Int) : Bool := decide (-(2 ^ (w - 1)) ≤ p) && decide (p < 2 ^ (w - 1))

/-- Every operand lies within its field; the widths and signs are those of opcode_table.json. -/
def Instr.wellFormed : Instr → Bool
  | .display => true
  | .bitmapSource addr => fitsUnsigned 20 addr
  | .clearColorRgb red green blue => fitsUnsigned 8 red && fitsUnsigned 8 green && fitsUnsigned 8 blue
  | .tag v => fitsUnsigned 8 v
  | .colorRgb red green blue => fitsUnsigned 8 red && fitsUnsigned 8 green && fitsUnsigned 8 blue
  | .bitmapHandle handle => fitsUnsigned 5 handle
  | .cell cellNo => fitsUnsigned 7 cellNo
  | .bitmapLayout format linestride height => fitsUnsigned 5 format && fitsUnsigned 10 linestride && fitsUnsigned 9 height
  | .bitmapSize filter wrapx wrapy width height => fitsUnsigned 1 filter && fitsUnsigned 1 wrapx && fitsUnsigned 1 wrapy && fitsUnsigned 9 width && fitsUnsigned 9 height
  | .alphaFunc func ref => fitsUnsigned 3 func && fitsUnsigned 8 ref
  | .stencilFunc func ref mask => fitsUnsigned 4 func && fitsUnsigned 8 ref && fitsUnsigned 8 mask
  | .blendFunc src dst => fitsUnsigned 3 src && fitsUnsigned 3 dst
  | .stencilOp sfail spass => fitsUnsigned 3 sfail && fitsUnsigned 3 spass
  | .pointSize size => fitsUnsigned 13 size
  | .lineWidth width => fitsUnsigned 12 width
  | .clearColorA alpha => fitsUnsigned 8 alpha
  | .colorA alpha => fitsUnsigned 8 alpha
  | .clearStencil v => fitsUnsigned 8 v
  | .clearTag v => fitsUnsigned 8 v
  | .stencilMask mask => fitsUnsigned 8 mask
  | .tagMask mask => fitsUnsigned 1 mask
  | .bitmapTransformA a => fitsSigned 17 a
  | .bitmapTransformB b => fitsSigned 17 b
  | .bitmapTransformC c => fitsSigned 24 c
  | .bitmapTransformD d => fitsSigned 17 d
  | .bitmapTransformE e => fitsSigned 17 e
  | .bitmapTransformF f => fitsSigned 24 f
  | .scissorXy x y => fitsUnsigned 9 x && fitsUnsigned 9 y
  | .scissorSize width height => fitsUnsigned 10 width && fitsUnsigned 10 height
  | .call dest => fitsUnsigned 16 dest
  | .jump dest => fitsUnsigned 16 dest
  | .beginPrim prim => fitsUnsigned 4 prim
  | .colorMask r g b a => fitsUnsigned 1 r && fitsUnsigned 1 g && fitsUnsigned 1 b && fitsUnsigned 1 a
  | .endPrim => true
  | .saveContext => true
  | .restoreContext => true
  | .returnList => true
  | .macroWord m => fitsUnsigned 1 m
  | .clear color stencil tagBit => fitsUnsigned 1 color && fitsUnsigned 1 stencil && fitsUnsigned 1 tagBit
  | .vertex2f x y => fitsSigned 15 x && fitsSigned 15 y
  | .vertex2ii x y handle cellNo => fitsUnsigned 9 x && fitsUnsigned 9 y && fitsUnsigned 5 handle && fitsUnsigned 7 cellNo
  | .cmdDlstart => true
  | .cmdSwap => true
  | .cmdCalibrate => true
  | .cmdText x y font options => fitsSigned 16 x && fitsSigned 16 y && fitsUnsigned 16 font && fitsUnsigned 16 options
  | .cmdButton x y w h font options => fitsSigned 16 x && fitsSigned 16 y && fitsUnsigned 16 w && fitsUnsigned 16 h && fitsUnsigned 16 font && fitsUnsigned 16 options
  | .cmdSpinner x y style scale => fitsSigned 16 x && fitsSigned 16 y && fitsUnsigned 16 style && fitsUnsigned 16 scale
  | .writeWord w => fitsUnsigned 32 w
  | .writeBuffer b => b.all (fitsUnsigned 8)
  | .writeStringCmd h str => !h.isEmpty && h.all (fitsUnsigned 32) && str.all (fitsUnsigned 8)
  | .fifoEmpty => true
  | .initForced => true
  | .initProbe => true
  | .getTouchRawXy => true
  | .getTouchScreenXy => true
  | .getTouchTag => true
  | .getTouchTransform => true
  | .setTouchTransform c0 c1 c2 c3 c4 c5 => [c0, c1, c2, c3, c4, c5].all (fitsUnsigned 32)
  | .buttonPoll => true
  | .discardActiveButton => true

/-- `Instr.wellFormed` as a proposition. -/
abbrev Instr.WellFormed (i : Instr) : Prop := i.wellFormed = true

end Sys2Proof
end

