-- ==== Sys2Proof/Decode.lean ====
section
/-! DEFINITION. The two decoders and their encoders. A REQUEST is an OPSEL with an operand list (R120 to R123); the block
decodes requests. A COMMAND WORD is what ENC packs (R100 to R111); R109 gives a reference decoder for it, "used by tests
and by a model's printer; the block itself never decodes". Each encoder is written from opcode_table.json's match values
and field positions, as sums; the meanings in Machine/ follow the rules' own shift-and-or pseudocode. -/

namespace Sys2Proof

/-- `mask_w(v) = v mod 2^w`, the non-negative residue (R12). -/
def mask (w : Nat) (v : Int) : Nat := (v % (2 : Int) ^ w).toNat

/-- `sext` of a `w`-bit pattern (R12): the value in `-2^(w-1) .. 2^(w-1)-1` with that pattern. -/
def sext (w : Nat) (u : Nat) : Int := if u < 2 ^ (w - 1) then (u : Int) else (u : Int) - (2 : Int) ^ w

/-- `n[lo+w-1:lo]`, an unsigned field of `w` bits (R11). -/
def ufield (n lo w : Nat) : Int := ((n / 2 ^ lo % 2 ^ w : Nat) : Int)

/-- A two's-complement field of `w` bits at `lo` (R107). -/
def sfield (n lo w : Nat) : Int := sext w (n / 2 ^ lo % 2 ^ w)

/-- The operand `v` masked into the field of `w` bits at `lo` (R106). -/
def atField (w lo : Nat) (v : Int) : Nat := mask w v * 2 ^ lo

/-- The low `n` bytes of a word, least significant first (R61). -/
def leBytes : Nat → Word → List Byte
  | 0, _ => []
  | n + 1, w => w.setWidth 8 :: leBytes n (w >>> 8)

/-- The value of bytes listed least significant first (R61). -/
def ofLeBytes : List Byte → Nat
  | [] => 0
  | b :: bs => b.toNat + 256 * ofLeBytes bs

/-- The 32-bit words that a byte string spells, each little-endian (R62); an incomplete last word is dropped. -/
def wordsOfBytes : List Byte → List Word
  | b0 :: b1 :: b2 :: b3 :: rest => BitVec.ofNat 32 (ofLeBytes [b0, b1, b2, b3]) :: wordsOfBytes rest
  | _ => []

/-- Why a request or a command word spells no operation. -/
inductive DecodeError where
  /-- OPSEL not listed in R120 (R123). -/
  | unassignedOpsel (opsel : Byte)
  /-- The operand list has not the kinds and count of the operation's rule (R121). -/
  | wrongOperands (opsel : Byte)
  /-- WRITE_STRING_CMD with no header word (R305: `k >= 1`). -/
  | emptyHeader
  /-- A reserved command word (R110). -/
  | reservedWord (w : Word)
  /-- A word with a 1 in a bit outside its instruction's fields (R109, D40). -/
  | nonCanonical (w : Word)
  /-- A token value not listed in 41_encoder_coproc.md (R110). -/
  | unknownToken (w : Word)
  /-- No word, or a token without its header words (R105). -/
  | truncated
deriving DecidableEq, Repr

/-! ### The request encoding -/

/-- The operand kinds of each OPSEL (R120, R121); `none` where R123 leaves the code unassigned. -/
def operandKinds (opsel : Byte) : Option (List OperandKind) :=
  match opsel.toNat with
  | 0x00 => some []
  | 0x01 => some [.int]
  | 0x02 => some [.int, .int, .int]
  | 0x03 => some [.int]
  | 0x04 => some [.int, .int, .int]
  | 0x05 => some [.int]
  | 0x06 => some [.int]
  | 0x07 => some [.int, .int, .int]
  | 0x08 => some [.int, .int, .int, .int, .int]
  | 0x09 => some [.int, .int]
  | 0x0A => some [.int, .int, .int]
  | 0x0B => some [.int, .int]
  | 0x0C => some [.int, .int]
  | 0x0D => some [.int]
  | 0x0E => some [.int]
  | 0x0F => some [.int]
  | 0x10 => some [.int]
  | 0x11 => some [.int]
  | 0x12 => some [.int]
  | 0x13 => some [.int]
  | 0x14 => some [.int]
  | 0x15 => some [.int]
  | 0x16 => some [.int]
  | 0x17 => some [.int]
  | 0x18 => some [.int]
  | 0x19 => some [.int]
  | 0x1A => some [.int]
  | 0x1B => some [.int, .int]
  | 0x1C => some [.int, .int]
  | 0x1D => some [.int]
  | 0x1E => some [.int]
  | 0x1F => some [.int]
  | 0x20 => some [.int, .int, .int, .int]
  | 0x21 => some []
  | 0x22 => some []
  | 0x23 => some []
  | 0x24 => some []
  | 0x25 => some [.int]
  | 0x26 => some [.int, .int, .int]
  | 0x40 => some [.int, .int]
  | 0x41 => some [.int, .int, .int, .int]
  | 0x50 => some []
  | 0x51 => some []
  | 0x52 => some []
  | 0x53 => some [.int, .int, .int, .int]
  | 0x54 => some [.int, .int, .int, .int, .int, .int]
  | 0x55 => some [.int, .int, .int, .int]
  | 0x60 => some [.int]
  | 0x61 => some [.bytes]
  | 0x62 => some [.words, .bytes]
  | 0x63 => some []
  | 0x70 => some []
  | 0x71 => some []
  | 0x80 => some []
  | 0x81 => some []
  | 0x82 => some []
  | 0x83 => some []
  | 0x84 => some [.int, .int, .int, .int, .int, .int]
  | 0x90 => some []
  | 0x91 => some []
  | _ => none

/-- Why a request that no row matches is rejected (R121, R123). -/
def requestError (opsel : Byte) : DecodeError :=
  if (operandKinds opsel).isSome then .wrongOperands opsel else .unassignedOpsel opsel

/-- The operations with no integer operands, by OPSEL (R120). -/
def decodeNone (opsel : Byte) : Except DecodeError Instr :=
  match opsel.toNat with
  | 0x00 => .ok .display
  | 0x21 => .ok .endPrim
  | 0x22 => .ok .saveContext
  | 0x23 => .ok .restoreContext
  | 0x24 => .ok .returnList
  | 0x50 => .ok .cmdDlstart
  | 0x51 => .ok .cmdSwap
  | 0x52 => .ok .cmdCalibrate
  | 0x63 => .ok .fifoEmpty
  | 0x70 => .ok .initForced
  | 0x71 => .ok .initProbe
  | 0x80 => .ok .getTouchRawXy
  | 0x81 => .ok .getTouchScreenXy
  | 0x82 => .ok .getTouchTag
  | 0x83 => .ok .getTouchTransform
  | 0x90 => .ok .buttonPoll
  | 0x91 => .ok .discardActiveButton
  | _ => .error (requestError opsel)

/-- The operations with one integer operand, by OPSEL (R120). -/
def decodeInt1 (opsel : Byte) (a : Int) : Except DecodeError Instr :=
  match opsel.toNat with
  | 0x01 => .ok (.bitmapSource a)
  | 0x03 => .ok (.tag a)
  | 0x05 => .ok (.bitmapHandle a)
  | 0x06 => .ok (.cell a)
  | 0x0D => .ok (.pointSize a)
  | 0x0E => .ok (.lineWidth a)
  | 0x0F => .ok (.clearColorA a)
  | 0x10 => .ok (.colorA a)
  | 0x11 => .ok (.clearStencil a)
  | 0x12 => .ok (.clearTag a)
  | 0x13 => .ok (.stencilMask a)
  | 0x14 => .ok (.tagMask a)
  | 0x15 => .ok (.bitmapTransformA a)
  | 0x16 => .ok (.bitmapTransformB a)
  | 0x17 => .ok (.bitmapTransformC a)
  | 0x18 => .ok (.bitmapTransformD a)
  | 0x19 => .ok (.bitmapTransformE a)
  | 0x1A => .ok (.bitmapTransformF a)
  | 0x1D => .ok (.call a)
  | 0x1E => .ok (.jump a)
  | 0x1F => .ok (.beginPrim a)
  | 0x25 => .ok (.macroWord a)
  | 0x60 => .ok (.writeWord a)
  | _ => .error (requestError opsel)

/-- The operations with two integer operands, by OPSEL (R120). -/
def decodeInt2 (opsel : Byte) (a b : Int) : Except DecodeError Instr :=
  match opsel.toNat with
  | 0x09 => .ok (.alphaFunc a b)
  | 0x0B => .ok (.blendFunc a b)
  | 0x0C => .ok (.stencilOp a b)
  | 0x1B => .ok (.scissorXy a b)
  | 0x1C => .ok (.scissorSize a b)
  | 0x40 => .ok (.vertex2f a b)
  | _ => .error (requestError opsel)

/-- The operations with three integer operands, by OPSEL (R120). -/
def decodeInt3 (opsel : Byte) (a b c : Int) : Except DecodeError Instr :=
  match opsel.toNat with
  | 0x02 => .ok (.clearColorRgb a b c)
  | 0x04 => .ok (.colorRgb a b c)
  | 0x07 => .ok (.bitmapLayout a b c)
  | 0x0A => .ok (.stencilFunc a b c)
  | 0x26 => .ok (.clear a b c)
  | _ => .error (requestError opsel)

/-- The operations with four integer operands, by OPSEL (R120). -/
def decodeInt4 (opsel : Byte) (a b c d : Int) : Except DecodeError Instr :=
  match opsel.toNat with
  | 0x20 => .ok (.colorMask a b c d)
  | 0x41 => .ok (.vertex2ii a b c d)
  | 0x53 => .ok (.cmdText a b c d)
  | 0x55 => .ok (.cmdSpinner a b c d)
  | _ => .error (requestError opsel)

/-- The operations with five integer operands, by OPSEL (R120). -/
def decodeInt5 (opsel : Byte) (a b c d e : Int) : Except DecodeError Instr :=
  match opsel.toNat with
  | 0x08 => .ok (.bitmapSize a b c d e)
  | _ => .error (requestError opsel)

/-- The operations with six integer operands, by OPSEL (R120). -/
def decodeInt6 (opsel : Byte) (a b c d e f : Int) : Except DecodeError Instr :=
  match opsel.toNat with
  | 0x54 => .ok (.cmdButton a b c d e f)
  | 0x84 => .ok (.setTouchTransform a b c d e f)
  | _ => .error (requestError opsel)

/-- The operation a request selects (R120); a request that spells none is rejected by name (R121, R123). -/
def decode (r : Request) : Except DecodeError Instr :=
  match r.operands with
  | [] => decodeNone r.opsel
  | [.int a] => decodeInt1 r.opsel a
  | [.int a, .int b] => decodeInt2 r.opsel a b
  | [.int a, .int b, .int c] => decodeInt3 r.opsel a b c
  | [.int a, .int b, .int c, .int d] => decodeInt4 r.opsel a b c d
  | [.int a, .int b, .int c, .int d, .int e] => decodeInt5 r.opsel a b c d e
  | [.int a, .int b, .int c, .int d, .int e, .int f] => decodeInt6 r.opsel a b c d e f
  | [.bytes b] => if r.opsel = 0x61 then .ok (.writeBuffer b) else .error (requestError r.opsel)
  | [.words h, .bytes b] =>
    if r.opsel = 0x62 then (if h.isEmpty then .error .emptyHeader else .ok (.writeStringCmd h b))
    else .error (requestError r.opsel)
  | _ => .error (requestError r.opsel)

/-- The operation-select code of each operation (R120). -/
def Instr.opsel : Instr → Byte
  | .display => 0x00
  | .bitmapSource _ => 0x01
  | .clearColorRgb _ _ _ => 0x02
  | .tag _ => 0x03
  | .colorRgb _ _ _ => 0x04
  | .bitmapHandle _ => 0x05
  | .cell _ => 0x06
  | .bitmapLayout _ _ _ => 0x07
  | .bitmapSize _ _ _ _ _ => 0x08
  | .alphaFunc _ _ => 0x09
  | .stencilFunc _ _ _ => 0x0A
  | .blendFunc _ _ => 0x0B
  | .stencilOp _ _ => 0x0C
  | .pointSize _ => 0x0D
  | .lineWidth _ => 0x0E
  | .clearColorA _ => 0x0F
  | .colorA _ => 0x10
  | .clearStencil _ => 0x11
  | .clearTag _ => 0x12
  | .stencilMask _ => 0x13
  | .tagMask _ => 0x14
  | .bitmapTransformA _ => 0x15
  | .bitmapTransformB _ => 0x16
  | .bitmapTransformC _ => 0x17
  | .bitmapTransformD _ => 0x18
  | .bitmapTransformE _ => 0x19
  | .bitmapTransformF _ => 0x1A
  | .scissorXy _ _ => 0x1B
  | .scissorSize _ _ => 0x1C
  | .call _ => 0x1D
  | .jump _ => 0x1E
  | .beginPrim _ => 0x1F
  | .colorMask _ _ _ _ => 0x20
  | .endPrim => 0x21
  | .saveContext => 0x22
  | .restoreContext => 0x23
  | .returnList => 0x24
  | .macroWord _ => 0x25
  | .clear _ _ _ => 0x26
  | .vertex2f _ _ => 0x40
  | .vertex2ii _ _ _ _ => 0x41
  | .cmdDlstart => 0x50
  | .cmdSwap => 0x51
  | .cmdCalibrate => 0x52
  | .cmdText _ _ _ _ => 0x53
  | .cmdButton _ _ _ _ _ _ => 0x54
  | .cmdSpinner _ _ _ _ => 0x55
  | .writeWord _ => 0x60
  | .writeBuffer _ => 0x61
  | .writeStringCmd _ _ => 0x62
  | .fifoEmpty => 0x63
  | .initForced => 0x70
  | .initProbe => 0x71
  | .getTouchRawXy => 0x80
  | .getTouchScreenXy => 0x81
  | .getTouchTag => 0x82
  | .getTouchTransform => 0x83
  | .setTouchTransform _ _ _ _ _ _ => 0x84
  | .buttonPoll => 0x90
  | .discardActiveButton => 0x91

/-- The operand list of each operation, in the order of its signature (R112, R121). -/
def Instr.operandList : Instr → List Operand
  | .display => []
  | .bitmapSource addr => [.int addr]
  | .clearColorRgb red green blue => [.int red, .int green, .int blue]
  | .tag v => [.int v]
  | .colorRgb red green blue => [.int red, .int green, .int blue]
  | .bitmapHandle handle => [.int handle]
  | .cell cellNo => [.int cellNo]
  | .bitmapLayout format linestride height => [.int format, .int linestride, .int height]
  | .bitmapSize filter wrapx wrapy width height => [.int filter, .int wrapx, .int wrapy, .int width, .int height]
  | .alphaFunc func ref => [.int func, .int ref]
  | .stencilFunc func ref mask => [.int func, .int ref, .int mask]
  | .blendFunc src dst => [.int src, .int dst]
  | .stencilOp sfail spass => [.int sfail, .int spass]
  | .pointSize size => [.int size]
  | .lineWidth width => [.int width]
  | .clearColorA alpha => [.int alpha]
  | .colorA alpha => [.int alpha]
  | .clearStencil v => [.int v]
  | .clearTag v => [.int v]
  | .stencilMask mask => [.int mask]
  | .tagMask mask => [.int mask]
  | .bitmapTransformA a => [.int a]
  | .bitmapTransformB b => [.int b]
  | .bitmapTransformC c => [.int c]
  | .bitmapTransformD d => [.int d]
  | .bitmapTransformE e => [.int e]
  | .bitmapTransformF f => [.int f]
  | .scissorXy x y => [.int x, .int y]
  | .scissorSize width height => [.int width, .int height]
  | .call dest => [.int dest]
  | .jump dest => [.int dest]
  | .beginPrim prim => [.int prim]
  | .colorMask r g b a => [.int r, .int g, .int b, .int a]
  | .endPrim => []
  | .saveContext => []
  | .restoreContext => []
  | .returnList => []
  | .macroWord m => [.int m]
  | .clear color stencil tagBit => [.int color, .int stencil, .int tagBit]
  | .vertex2f x y => [.int x, .int y]
  | .vertex2ii x y handle cellNo => [.int x, .int y, .int handle, .int cellNo]
  | .cmdDlstart => []
  | .cmdSwap => []
  | .cmdCalibrate => []
  | .cmdText x y font options => [.int x, .int y, .int font, .int options]
  | .cmdButton x y w h font options => [.int x, .int y, .int w, .int h, .int font, .int options]
  | .cmdSpinner x y style scale => [.int x, .int y, .int style, .int scale]
  | .writeWord w => [.int w]
  | .writeBuffer b => [.bytes b]
  | .writeStringCmd h str => [.words h, .bytes str]
  | .fifoEmpty => []
  | .initForced => []
  | .initProbe => []
  | .getTouchRawXy => []
  | .getTouchScreenXy => []
  | .getTouchTag => []
  | .getTouchTransform => []
  | .setTouchTransform c0 c1 c2 c3 c4 c5 => [.int c0, .int c1, .int c2, .int c3, .int c4, .int c5]
  | .buttonPoll => []
  | .discardActiveButton => []

/-- The request that selects an operation: the encoder of the request encoding (R120, R121). -/
def encode (i : Instr) : Request := ⟨i.opsel, i.operandList⟩

/-! ### The command-word encoding -/

/-- The operation `i` if the word's bits from `k` up are the row's fixed bits `fixed`, so that no bit outside a field
is 1; else non-canonical (R109, D40). -/
def canonical (n k fixed : Nat) (i : Instr) : Except DecodeError Instr :=
  if n / 2 ^ k = fixed then .ok i else .error (.nonCanonical (BitVec.ofNat 32 n))

/-- The OP8 instruction of a word whose opcode byte is at most 0x26 (R101, R109). -/
def decodeOp8 (n : Nat) : Except DecodeError Instr :=
  match n / 2 ^ 24 with
  | 0x00 => canonical n 0 0x0 .display
  | 0x01 => canonical n 20 0x10 (.bitmapSource (ufield n 0 20))
  | 0x02 => canonical n 24 0x2 (.clearColorRgb (ufield n 16 8) (ufield n 8 8) (ufield n 0 8))
  | 0x03 => canonical n 8 0x30000 (.tag (ufield n 0 8))
  | 0x04 => canonical n 24 0x4 (.colorRgb (ufield n 16 8) (ufield n 8 8) (ufield n 0 8))
  | 0x05 => canonical n 5 0x280000 (.bitmapHandle (ufield n 0 5))
  | 0x06 => canonical n 7 0xC0000 (.cell (ufield n 0 7))
  | 0x07 => canonical n 24 0x7 (.bitmapLayout (ufield n 19 5) (ufield n 9 10) (ufield n 0 9))
  | 0x08 => canonical n 21 0x40 (.bitmapSize (ufield n 20 1) (ufield n 19 1) (ufield n 18 1) (ufield n 9 9) (ufield n 0 9))
  | 0x09 => canonical n 11 0x12000 (.alphaFunc (ufield n 8 3) (ufield n 0 8))
  | 0x0A => canonical n 20 0xA0 (.stencilFunc (ufield n 16 4) (ufield n 8 8) (ufield n 0 8))
  | 0x0B => canonical n 6 0x2C0000 (.blendFunc (ufield n 3 3) (ufield n 0 3))
  | 0x0C => canonical n 6 0x300000 (.stencilOp (ufield n 3 3) (ufield n 0 3))
  | 0x0D => canonical n 13 0x6800 (.pointSize (ufield n 0 13))
  | 0x0E => canonical n 12 0xE000 (.lineWidth (ufield n 0 12))
  | 0x0F => canonical n 8 0xF0000 (.clearColorA (ufield n 0 8))
  | 0x10 => canonical n 8 0x100000 (.colorA (ufield n 0 8))
  | 0x11 => canonical n 8 0x110000 (.clearStencil (ufield n 0 8))
  | 0x12 => canonical n 8 0x120000 (.clearTag (ufield n 0 8))
  | 0x13 => canonical n 8 0x130000 (.stencilMask (ufield n 0 8))
  | 0x14 => canonical n 1 0xA000000 (.tagMask (ufield n 0 1))
  | 0x15 => canonical n 17 0xA80 (.bitmapTransformA (sfield n 0 17))
  | 0x16 => canonical n 17 0xB00 (.bitmapTransformB (sfield n 0 17))
  | 0x17 => canonical n 24 0x17 (.bitmapTransformC (sfield n 0 24))
  | 0x18 => canonical n 17 0xC00 (.bitmapTransformD (sfield n 0 17))
  | 0x19 => canonical n 17 0xC80 (.bitmapTransformE (sfield n 0 17))
  | 0x1A => canonical n 24 0x1A (.bitmapTransformF (sfield n 0 24))
  | 0x1B => canonical n 18 0x6C0 (.scissorXy (ufield n 9 9) (ufield n 0 9))
  | 0x1C => canonical n 20 0x1C0 (.scissorSize (ufield n 10 10) (ufield n 0 10))
  | 0x1D => canonical n 16 0x1D00 (.call (ufield n 0 16))
  | 0x1E => canonical n 16 0x1E00 (.jump (ufield n 0 16))
  | 0x1F => canonical n 4 0x1F00000 (.beginPrim (ufield n 0 4))
  | 0x20 => canonical n 4 0x2000000 (.colorMask (ufield n 3 1) (ufield n 2 1) (ufield n 1 1) (ufield n 0 1))
  | 0x21 => canonical n 0 0x21000000 .endPrim
  | 0x22 => canonical n 0 0x22000000 .saveContext
  | 0x23 => canonical n 0 0x23000000 .restoreContext
  | 0x24 => canonical n 0 0x24000000 .returnList
  | 0x25 => canonical n 1 0x12800000 (.macroWord (ufield n 0 1))
  | 0x26 => canonical n 3 0x4C00000 (.clear (ufield n 2 1) (ufield n 1 1) (ufield n 0 1))
  | _ => .error (.reservedWord (BitVec.ofNat 32 n))

/-- The coprocessor command of a token word, with the header words that follow it (R104, R105, R255). R109 decodes no
header word. DEDUCED (log 21): a header parameter is read back from its 16 bits, `x` and `y` sign-extended, since R256 to
R258 call them 16-bit signed (R107 calls every field but those of VERTEX2F and BITMAP_TRANSFORM_A..F unsigned), the others
unsigned. DESIGN CHOICE (log 21): a token without all its header words is `truncated`. -/
def decodeToken (w : Word) (rest : List Word) : Except DecodeError (Instr × List Word) :=
  match w.toNat % 2 ^ 8, rest with
  | 0x00, _ => .ok (.cmdDlstart, rest)
  | 0x01, _ => .ok (.cmdSwap, rest)
  | 0x15, _ => .ok (.cmdCalibrate, rest)
  | 0x0C, p :: q :: rest => .ok (.cmdText (sfield p.toNat 0 16) (sfield p.toNat 16 16) (ufield q.toNat 0 16) (ufield q.toNat 16 16), rest)
  | 0x0D, p :: q :: r :: rest => .ok (.cmdButton (sfield p.toNat 0 16) (sfield p.toNat 16 16) (ufield q.toNat 0 16) (ufield q.toNat 16 16) (ufield r.toNat 0 16) (ufield r.toNat 16 16), rest)
  | 0x16, p :: q :: rest => .ok (.cmdSpinner (sfield p.toNat 0 16) (sfield p.toNat 16 16) (ufield q.toNat 0 16) (ufield q.toNat 16 16), rest)
  | 0x0C, _ => .error .truncated
  | 0x0D, _ => .error .truncated
  | 0x16, _ => .error .truncated
  | _, _ => .error (.unknownToken w)

/-- The display-list instruction of a word that is no token (R109). -/
def decodeDisplayList (n : Nat) : Except DecodeError Instr :=
  if n / 2 ^ 30 = 1 then .ok (.vertex2f (sfield n 15 15) (sfield n 0 15))
  else if n / 2 ^ 30 = 2 then .ok (.vertex2ii (ufield n 21 9) (ufield n 12 9) (ufield n 7 5) (ufield n 0 7))
  else decodeOp8 n

/-- The reference decoder of R109 over a stream of command words: the first command and the words after it. That it reads
a string command's header words too is the model's (log 21). -/
def decodeCommand : List Word → Except DecodeError (Instr × List Word)
  | [] => .error .truncated
  | w :: rest =>
    if w.toNat / 2 ^ 8 = 0xFFFFFF then decodeToken w rest
    else (decodeDisplayList w.toNat).map fun i => (i, rest)

/-- `decodeCommand` on the bytes of a command as the FIFO holds them, lowest address first (R61, R62). -/
def decodeCommandBytes (bs : List Byte) : Except DecodeError (Instr × List Word) := decodeCommand (wordsOfBytes bs)

/-- The command words an encoder operation produces (R100 to R105), `none` for an operation that is no encoder. Each
word is the row's match value plus its masked fields at their positions. -/
def encodeWords : Instr → Option (List Word)
  | .display => some [BitVec.ofNat 32 (0x00000000)]
  | .bitmapSource addr => some [BitVec.ofNat 32 (0x01000000 + atField 20 0 addr)]
  | .clearColorRgb red green blue => some [BitVec.ofNat 32 (0x02000000 + atField 8 16 red + atField 8 8 green + atField 8 0 blue)]
  | .tag v => some [BitVec.ofNat 32 (0x03000000 + atField 8 0 v)]
  | .colorRgb red green blue => some [BitVec.ofNat 32 (0x04000000 + atField 8 16 red + atField 8 8 green + atField 8 0 blue)]
  | .bitmapHandle handle => some [BitVec.ofNat 32 (0x05000000 + atField 5 0 handle)]
  | .cell cellNo => some [BitVec.ofNat 32 (0x06000000 + atField 7 0 cellNo)]
  | .bitmapLayout format linestride height => some [BitVec.ofNat 32 (0x07000000 + atField 5 19 format + atField 10 9 linestride + atField 9 0 height)]
  | .bitmapSize filter wrapx wrapy width height => some [BitVec.ofNat 32 (0x08000000 + atField 1 20 filter + atField 1 19 wrapx + atField 1 18 wrapy + atField 9 9 width + atField 9 0 height)]
  | .alphaFunc func ref => some [BitVec.ofNat 32 (0x09000000 + atField 3 8 func + atField 8 0 ref)]
  | .stencilFunc func ref mask => some [BitVec.ofNat 32 (0x0A000000 + atField 4 16 func + atField 8 8 ref + atField 8 0 mask)]
  | .blendFunc src dst => some [BitVec.ofNat 32 (0x0B000000 + atField 3 3 src + atField 3 0 dst)]
  | .stencilOp sfail spass => some [BitVec.ofNat 32 (0x0C000000 + atField 3 3 sfail + atField 3 0 spass)]
  | .pointSize size => some [BitVec.ofNat 32 (0x0D000000 + atField 13 0 size)]
  | .lineWidth width => some [BitVec.ofNat 32 (0x0E000000 + atField 12 0 width)]
  | .clearColorA alpha => some [BitVec.ofNat 32 (0x0F000000 + atField 8 0 alpha)]
  | .colorA alpha => some [BitVec.ofNat 32 (0x10000000 + atField 8 0 alpha)]
  | .clearStencil v => some [BitVec.ofNat 32 (0x11000000 + atField 8 0 v)]
  | .clearTag v => some [BitVec.ofNat 32 (0x12000000 + atField 8 0 v)]
  | .stencilMask mask => some [BitVec.ofNat 32 (0x13000000 + atField 8 0 mask)]
  | .tagMask mask => some [BitVec.ofNat 32 (0x14000000 + atField 1 0 mask)]
  | .bitmapTransformA a => some [BitVec.ofNat 32 (0x15000000 + atField 17 0 a)]
  | .bitmapTransformB b => some [BitVec.ofNat 32 (0x16000000 + atField 17 0 b)]
  | .bitmapTransformC c => some [BitVec.ofNat 32 (0x17000000 + atField 24 0 c)]
  | .bitmapTransformD d => some [BitVec.ofNat 32 (0x18000000 + atField 17 0 d)]
  | .bitmapTransformE e => some [BitVec.ofNat 32 (0x19000000 + atField 17 0 e)]
  | .bitmapTransformF f => some [BitVec.ofNat 32 (0x1A000000 + atField 24 0 f)]
  | .scissorXy x y => some [BitVec.ofNat 32 (0x1B000000 + atField 9 9 x + atField 9 0 y)]
  | .scissorSize width height => some [BitVec.ofNat 32 (0x1C000000 + atField 10 10 width + atField 10 0 height)]
  | .call dest => some [BitVec.ofNat 32 (0x1D000000 + atField 16 0 dest)]
  | .jump dest => some [BitVec.ofNat 32 (0x1E000000 + atField 16 0 dest)]
  | .beginPrim prim => some [BitVec.ofNat 32 (0x1F000000 + atField 4 0 prim)]
  | .colorMask r g b a => some [BitVec.ofNat 32 (0x20000000 + atField 1 3 r + atField 1 2 g + atField 1 1 b + atField 1 0 a)]
  | .endPrim => some [BitVec.ofNat 32 (0x21000000)]
  | .saveContext => some [BitVec.ofNat 32 (0x22000000)]
  | .restoreContext => some [BitVec.ofNat 32 (0x23000000)]
  | .returnList => some [BitVec.ofNat 32 (0x24000000)]
  | .macroWord m => some [BitVec.ofNat 32 (0x25000000 + atField 1 0 m)]
  | .clear color stencil tagBit => some [BitVec.ofNat 32 (0x26000000 + atField 1 2 color + atField 1 1 stencil + atField 1 0 tagBit)]
  | .vertex2f x y => some [BitVec.ofNat 32 (0x40000000 + atField 15 15 x + atField 15 0 y)]
  | .vertex2ii x y handle cellNo => some [BitVec.ofNat 32 (0x80000000 + atField 9 21 x + atField 9 12 y + atField 5 7 handle + atField 7 0 cellNo)]
  | .cmdDlstart => some [BitVec.ofNat 32 (0xFFFFFF00)]
  | .cmdSwap => some [BitVec.ofNat 32 (0xFFFFFF01)]
  | .cmdCalibrate => some [BitVec.ofNat 32 (0xFFFFFF15)]
  | .cmdText x y font options => some [BitVec.ofNat 32 (0xFFFFFF0C), BitVec.ofNat 32 (atField 16 0 x + atField 16 16 y), BitVec.ofNat 32 (atField 16 0 font + atField 16 16 options)]
  | .cmdButton x y w h font options => some [BitVec.ofNat 32 (0xFFFFFF0D), BitVec.ofNat 32 (atField 16 0 x + atField 16 16 y), BitVec.ofNat 32 (atField 16 0 w + atField 16 16 h), BitVec.ofNat 32 (atField 16 0 font + atField 16 16 options)]
  | .cmdSpinner x y style scale => some [BitVec.ofNat 32 (0xFFFFFF16), BitVec.ofNat 32 (atField 16 0 x + atField 16 16 y), BitVec.ofNat 32 (atField 16 0 style + atField 16 16 scale)]
  | .writeWord _ => none
  | .writeBuffer _ => none
  | .writeStringCmd _ _ => none
  | .fifoEmpty => none
  | .initForced => none
  | .initProbe => none
  | .getTouchRawXy => none
  | .getTouchScreenXy => none
  | .getTouchTag => none
  | .getTouchTransform => none
  | .setTouchTransform _ _ _ _ _ _ => none
  | .buttonPoll => none
  | .discardActiveButton => none

/-! ### Names -/

/-- The mnemonic of each operation (R112, opcode_table.json). -/
def Instr.mnemonic : Instr → String
  | .display => "DISPLAY"
  | .bitmapSource _ => "BITMAP_SOURCE"
  | .clearColorRgb _ _ _ => "CLEAR_COLOR_RGB"
  | .tag _ => "TAG"
  | .colorRgb _ _ _ => "COLOR_RGB"
  | .bitmapHandle _ => "BITMAP_HANDLE"
  | .cell _ => "CELL"
  | .bitmapLayout _ _ _ => "BITMAP_LAYOUT"
  | .bitmapSize _ _ _ _ _ => "BITMAP_SIZE"
  | .alphaFunc _ _ => "ALPHA_FUNC"
  | .stencilFunc _ _ _ => "STENCIL_FUNC"
  | .blendFunc _ _ => "BLEND_FUNC"
  | .stencilOp _ _ => "STENCIL_OP"
  | .pointSize _ => "POINT_SIZE"
  | .lineWidth _ => "LINE_WIDTH"
  | .clearColorA _ => "CLEAR_COLOR_A"
  | .colorA _ => "COLOR_A"
  | .clearStencil _ => "CLEAR_STENCIL"
  | .clearTag _ => "CLEAR_TAG"
  | .stencilMask _ => "STENCIL_MASK"
  | .tagMask _ => "TAG_MASK"
  | .bitmapTransformA _ => "BITMAP_TRANSFORM_A"
  | .bitmapTransformB _ => "BITMAP_TRANSFORM_B"
  | .bitmapTransformC _ => "BITMAP_TRANSFORM_C"
  | .bitmapTransformD _ => "BITMAP_TRANSFORM_D"
  | .bitmapTransformE _ => "BITMAP_TRANSFORM_E"
  | .bitmapTransformF _ => "BITMAP_TRANSFORM_F"
  | .scissorXy _ _ => "SCISSOR_XY"
  | .scissorSize _ _ => "SCISSOR_SIZE"
  | .call _ => "CALL"
  | .jump _ => "JUMP"
  | .beginPrim _ => "BEGIN"
  | .colorMask _ _ _ _ => "COLOR_MASK"
  | .endPrim => "END"
  | .saveContext => "SAVE_CONTEXT"
  | .restoreContext => "RESTORE_CONTEXT"
  | .returnList => "RETURN"
  | .macroWord _ => "MACRO"
  | .clear _ _ _ => "CLEAR"
  | .vertex2f _ _ => "VERTEX2F"
  | .vertex2ii _ _ _ _ => "VERTEX2II"
  | .cmdDlstart => "CMD_DLSTART"
  | .cmdSwap => "CMD_SWAP"
  | .cmdCalibrate => "CMD_CALIBRATE"
  | .cmdText _ _ _ _ => "CMD_TEXT"
  | .cmdButton _ _ _ _ _ _ => "CMD_BUTTON"
  | .cmdSpinner _ _ _ _ => "CMD_SPINNER"
  | .writeWord _ => "WRITE_WORD"
  | .writeBuffer _ => "WRITE_BUFFER"
  | .writeStringCmd _ _ => "WRITE_STRING_CMD"
  | .fifoEmpty => "FIFO_EMPTY"
  | .initForced => "INIT_FORCED"
  | .initProbe => "INIT_PROBE"
  | .getTouchRawXy => "GET_TOUCH_RAW_XY"
  | .getTouchScreenXy => "GET_TOUCH_SCREEN_XY"
  | .getTouchTag => "GET_TOUCH_TAG"
  | .getTouchTransform => "GET_TOUCH_TRANSFORM"
  | .setTouchTransform _ _ _ _ _ _ => "SET_TOUCH_TRANSFORM"
  | .buttonPoll => "BUTTON_POLL"
  | .discardActiveButton => "DISCARD_ACTIVE_BUTTON"

/-! ### The words of opcode_table.json -/

/-- The zero operand of each kind: 0, the empty byte string, one header word 0 (R305 asks for at least one). -/
def zeroOperand : OperandKind → Operand
  | .int => .int 0
  | .bytes => .bytes []
  | .words => .words [0]

/-- The request with this OPSEL and operands of zeros (log 13). -/
def zeroRequest (opsel : Byte) : Request := ⟨opsel, ((operandKinds opsel).getD []).map zeroOperand⟩

/-- The instruction whose table bits are `w`. A 32-bit row is a command word: its bytes, little-endian, followed by zero
header words up to the longest command (four words), go to `decodeCommandBytes`. An 8-bit row is an OPSEL: it goes to
`decode` with operands of zeros (log 13). -/
def decodeTableWord (nbits w : Nat) : Option Instr :=
  if nbits = 32 then
    (decodeCommandBytes (leBytes 4 (BitVec.ofNat 32 w) ++ List.replicate 12 0)).toOption.map Prod.fst
  else if nbits = 8 then (decode (zeroRequest (BitVec.ofNat 8 w))).toOption
  else none

/-- The request that asks for the instruction whose table bits are `w`; where the decoder refuses the bits, a request
that spells no operation (R123). -/
def tableRequest (nbits w : Nat) : Request :=
  match decodeTableWord nbits w with
  | some i => encode i
  | none => ⟨0xFF, []⟩

end Sys2Proof
end

