-- ==== Sys2Proof/Config.lean ====
section
/-! DEFINITION. What an implementation fixes (R9, R10, R38) and what the spec leaves free (R75, 92 OPEN table): the
types of the configuration, and the opaque constants. An opaque constant has no body, so nothing holds of its value. -/

namespace Sys2Proof

/-- The access widths of the bus, in bits (R64: "Width ∈ {8,16,32} bits"). -/
inductive Width where
  | w8 | w16 | w32
deriving DecidableEq, Repr, Inhabited

/-- The device registers of REGMAP (R66). Rules name registers, never numbers. -/
inductive Reg where
  | id
  | hcycle | hoffset | hsize | hsync0 | hsync1
  | vcycle | voffset | vsize | vsync0 | vsync1
  | dlswap | swizzle | cspread | pclkPol | pclk
  | volSound | gpioDir | gpio | pwmHz | pwmDuty
  | cmdRead | cmdWrite
  | touchRawXy | touchScreenXy | touchTag
  | touchTransformA | touchTransformB | touchTransformC | touchTransformD | touchTransformE | touchTransformF
deriving DecidableEq, Repr, Inhabited

/-- `REGMAP`, the configuration record of register addresses (R66, D8). The six transform registers stand one after the
other from REG_TOUCH_TRANSFORM_A: R376 and R377 address them as `REG_TOUCH_TRANSFORM_A + 4*i` (log 8). -/
structure RegMap where
  id              : Addr
  hcycle          : Addr
  hoffset         : Addr
  hsize           : Addr
  hsync0          : Addr
  hsync1          : Addr
  vcycle          : Addr
  voffset         : Addr
  vsize           : Addr
  vsync0          : Addr
  vsync1          : Addr
  dlswap          : Addr
  swizzle         : Addr
  cspread         : Addr
  pclkPol         : Addr
  pclk            : Addr
  volSound        : Addr
  gpioDir         : Addr
  gpio            : Addr
  pwmHz           : Addr
  pwmDuty         : Addr
  cmdRead         : Addr
  cmdWrite        : Addr
  touchRawXy      : Addr
  touchScreenXy   : Addr
  touchTag        : Addr
  touchTransformA : Addr
deriving DecidableEq, Repr, Inhabited

/-- One entry (register, width, value) of MUTE_WRITES or UNMUTE_WRITES (R330, D13). DESIGN CHOICE (log 22): the value is
32 bits, the widest access. -/
structure RegWrite where
  reg   : Reg
  width : Width
  value : Word
deriving DecidableEq, Repr, Inhabited

/-- The panel's thirteen timing values (R330, R335): ten 16-bit ones and the 8-bit PCLK_POL, SWIZZLE, CSPREAD. -/
structure PanelTiming where
  hcycle  : Half
  hoffset : Half
  hsync0  : Half
  hsync1  : Half
  hsize   : Half
  vcycle  : Half
  voffset : Half
  vsync0  : Half
  vsync1  : Half
  vsize   : Half
  pclkPol : Byte
  swizzle : Byte
  cspread : Byte
deriving DecidableEq, Repr, Inhabited

/-- The configuration of a block (R10, R330): fixed when the block is reset, changed by no operation (R38). -/
structure Params where
  /-- `REGMAP` (R66). -/
  regmap           : RegMap
  /-- `HC_RESET`. DESIGN CHOICE (log 22): a host-command code is 8 bits wide; the spec states no width (R330, D9). -/
  hcReset          : Byte
  /-- `HC_ACTIVE`, 8 bits by the same choice (log 22). -/
  hcActive         : Byte
  /-- `HC_CLKEXT`, 8 bits by the same choice (log 22). -/
  hcClkExt         : Byte
  verifyId         : Bool
  /-- `EXPECTED_ID`. DESIGN CHOICE (log 22): 8 bits, the width of the read it is compared with (R333). -/
  expectedId       : Byte
  tReset           : Nat
  tActive          : Nat
  tClk             : Nat
  panel            : PanelTiming
  /-- PANEL.PCLK_DIV, in 1..255 (R330). -/
  pclkDiv          : Byte
  muteWrites       : List RegWrite
  unmuteWrites     : List RegWrite
  /-- `DLSWAP_FRAME`. DESIGN CHOICE (log 22): 8 bits, as are the three GPIO values, the width of their accesses (R336,
  R337). -/
  dlswapFrame      : Byte
  gpioDirValue     : Byte
  gpioValue        : Byte
  gpioDispMask     : Byte
  /-- Whether callers append a string after a spinner header (R258); no operation of the block reads it (log 19). -/
  spinnerHasString : Bool
deriving DecidableEq, Repr

/-- What the environment does at one bus transaction (R6, R75): the bytes of its own address space that the chip
changed since the transaction before, and whether this transaction succeeds. -/
structure EnvAction where
  chip : List Host.Cell
  ok   : Bool
deriving DecidableEq, Repr, Inhabited

/-- FREE VALUE (R75, log 3): the environment's action at the bus transaction with this number, where none is given. -/
opaque Config.envAction : Nat → EnvAction

/-- OPEN (D11, log 7): the settle delay after the reset host command. -/
opaque Config.tReset : Nat

/-- OPEN (D11, log 7): the settle delay after the active host command. -/
opaque Config.tActive : Nat

/-- OPEN (D11, log 7): the settle delay after the clock selection. -/
opaque Config.tClk : Nat

/-- OPEN (D12, log 7): the panel's timing values. -/
opaque Config.panel : PanelTiming

/-- OPEN (D12, log 7): the pixel-clock divisor less 1, so that the divisor is in 1..255 whatever it is. -/
opaque Config.pclkDivLessOne : Fin 255

/-- OPEN (D13, log 7): the register writes that mute audio. -/
opaque Config.muteWrites : List RegWrite

/-- OPEN (D13, log 7): the register writes that unmute audio. -/
opaque Config.unmuteWrites : List RegWrite

end Sys2Proof
end

