-- ==== Sys2Proof/Machine/Params.lean ====
section
/-! DEFINITION. The parameters' values: those the source fixes (R9, R65), the default register map and the address of a
register in the configured one (R66), the defaults of R10 and R330 with the OPEN parameters of Config in their places; and
the enumerated operand values of R124. -/

namespace Sys2Proof.Machine

/-- `CMD_SIZE`, the bytes of the command FIFO (R9). -/
def cmdSize : Nat := 4096

/-- `CMD_BASE = RAM_CMD` (R9, R65). -/
def cmdBase : Nat := 0x108000

/-- The base of RAM_G (R65). -/
def ramGBase : Nat := 0x000000

/-- The size of RAM_G, 256 KiB (R65, G2). -/
def ramGSize : Nat := 0x40000

/-- The base of RAM_DL (R65). -/
def ramDlBase : Nat := 0x100000

/-- The size of RAM_DL, 8 KiB (R65, G2). -/
def ramDlSize : Nat := 0x2000

/-- The base of the register block (R9, R65). -/
def regBase : Nat := 0x102400

/-- The bytes of the chip's 24-bit address space (R60). -/
def addressSpace : Nat := 0x1000000

/-- The default of `REGMAP`: the FT800 register map of R66 (D8, G2). -/
def defaultRegMap : RegMap where
  id := 0x102400
  hcycle := 0x102428
  hoffset := 0x10242C
  hsize := 0x102430
  hsync0 := 0x102434
  hsync1 := 0x102438
  vcycle := 0x10243C
  voffset := 0x102440
  vsize := 0x102444
  vsync0 := 0x102448
  vsync1 := 0x10244C
  dlswap := 0x102450
  swizzle := 0x102460
  cspread := 0x102464
  pclkPol := 0x102468
  pclk := 0x10246C
  volSound := 0x102480
  gpioDir := 0x10248C
  gpio := 0x102490
  pwmHz := 0x1024C0
  pwmDuty := 0x1024C4
  cmdRead := 0x1024E4
  cmdWrite := 0x1024E8
  touchRawXy := 0x102508
  touchScreenXy := 0x102510
  touchTag := 0x102518
  touchTransformA := 0x10251C

/-- The device registers of `REGMAP`, in the order of R66. -/
def registers : List Reg :=
  [.id, .hcycle, .hoffset, .hsize, .hsync0, .hsync1, .vcycle, .voffset, .vsize, .vsync0, .vsync1, .dlswap, .swizzle,
   .cspread, .pclkPol, .pclk, .volSound, .gpioDir, .gpio, .pwmHz, .pwmDuty, .cmdRead, .cmdWrite, .touchRawXy,
   .touchScreenXy, .touchTag, .touchTransformA, .touchTransformB, .touchTransformC, .touchTransformD, .touchTransformE,
   .touchTransformF]

/-- The address of a register in the configured `REGMAP` (R66); the transform registers are
`REG_TOUCH_TRANSFORM_A + 4*i` (R376). -/
def regAddr (p : Params) : Reg → Addr
  | .id => p.regmap.id
  | .hcycle => p.regmap.hcycle
  | .hoffset => p.regmap.hoffset
  | .hsize => p.regmap.hsize
  | .hsync0 => p.regmap.hsync0
  | .hsync1 => p.regmap.hsync1
  | .vcycle => p.regmap.vcycle
  | .voffset => p.regmap.voffset
  | .vsize => p.regmap.vsize
  | .vsync0 => p.regmap.vsync0
  | .vsync1 => p.regmap.vsync1
  | .dlswap => p.regmap.dlswap
  | .swizzle => p.regmap.swizzle
  | .cspread => p.regmap.cspread
  | .pclkPol => p.regmap.pclkPol
  | .pclk => p.regmap.pclk
  | .volSound => p.regmap.volSound
  | .gpioDir => p.regmap.gpioDir
  | .gpio => p.regmap.gpio
  | .pwmHz => p.regmap.pwmHz
  | .pwmDuty => p.regmap.pwmDuty
  | .cmdRead => p.regmap.cmdRead
  | .cmdWrite => p.regmap.cmdWrite
  | .touchRawXy => p.regmap.touchRawXy
  | .touchScreenXy => p.regmap.touchScreenXy
  | .touchTag => p.regmap.touchTag
  | .touchTransformA => p.regmap.touchTransformA
  | .touchTransformB => p.regmap.touchTransformA + 4
  | .touchTransformC => p.regmap.touchTransformA + 8
  | .touchTransformD => p.regmap.touchTransformA + 12
  | .touchTransformE => p.regmap.touchTransformA + 16
  | .touchTransformF => p.regmap.touchTransformA + 20

/-- The bytes of an access of each width (R64). -/
def widthBytes : Width → Nat
  | .w8 => 1
  | .w16 => 2
  | .w32 => 4

/-- The raw-touch sentinel (R9, R371). -/
def rawSentinel : Word := 0xFFFFFFFF

/-- The screen-touch sentinel (R9, R372). -/
def screenSentinel : Word := 0x80008000

/-- `no_tag` (R391). -/
def noTag : Byte := 0

/-- `untagged_icon` (R391). -/
def untaggedIcon : Byte := 255

/-- `button_released`, the release event (R391, R392). -/
def buttonReleased : Byte := 254

/-- The configuration where none is given: the defaults of R10 and R330 (D8, D9, D10, D14, D15, D6), and the OPEN constants
of Config for the parameters the spec gives no value (log 7). -/
def defaultParams : Params where
  regmap := defaultRegMap
  hcReset := 0x68
  hcActive := 0x00
  hcClkExt := 0x44
  verifyId := true
  expectedId := 0x7C
  tReset := Config.tReset
  tActive := Config.tActive
  tClk := Config.tClk
  panel := Config.panel
  pclkDiv := BitVec.ofNat 8 (Config.pclkDivLessOne.val + 1)
  muteWrites := Config.muteWrites
  unmuteWrites := Config.unmuteWrites
  dlswapFrame := 2
  gpioDirValue := 0x80
  gpioValue := 0x80
  gpioDispMask := 0x80
  spinnerHasString := false

/-! ### Enumerated operand values (R124). The encoder packs any integer; a caller passes these codes. -/

/-- The primitives of BEGIN (R124). -/
inductive Primitive where
  | bitmaps | points | lines | lineStrip | edgeStripR | edgeStripL | edgeStripA | edgeStripB | rects
deriving DecidableEq, Repr

/-- The numeric value of a primitive (R124). -/
def primitiveCode : Primitive → Int
  | .bitmaps => 1
  | .points => 2
  | .lines => 3
  | .lineStrip => 4
  | .edgeStripR => 5
  | .edgeStripL => 6
  | .edgeStripA => 7
  | .edgeStripB => 8
  | .rects => 9

/-- The formats of BITMAP_LAYOUT (R124). -/
inductive BitmapFormat where
  | argb1555 | l1 | l4 | l8 | rgb332 | argb2 | argb4 | rgb565 | paletted | text8x8 | textVga | barGraph
deriving DecidableEq, Repr

/-- The numeric value of a bitmap format (R124). -/
def bitmapFormatCode : BitmapFormat → Int
  | .argb1555 => 0
  | .l1 => 1
  | .l4 => 2
  | .l8 => 3
  | .rgb332 => 4
  | .argb2 => 5
  | .argb4 => 6
  | .rgb565 => 7
  | .paletted => 8
  | .text8x8 => 9
  | .textVga => 10
  | .barGraph => 11

/-- The filters of BITMAP_SIZE (R124). -/
inductive BitmapFilter where
  | nearest | bilinear
deriving DecidableEq, Repr

/-- The numeric value of a filter (R124). -/
def bitmapFilterCode : BitmapFilter → Int
  | .nearest => 0
  | .bilinear => 1

/-- The wraps of BITMAP_SIZE (R124). -/
inductive BitmapWrap where
  | border | repeating
deriving DecidableEq, Repr

/-- The numeric value of a wrap (R124). -/
def bitmapWrapCode : BitmapWrap → Int
  | .border => 0
  | .repeating => 1

/-- The test functions of ALPHA_FUNC and STENCIL_FUNC (R124). -/
inductive TestFunc where
  | never | less | lequal | greater | gequal | equal | notequal | always
deriving DecidableEq, Repr

/-- The numeric value of a test function (R124). -/
def testFuncCode : TestFunc → Int
  | .never => 0
  | .less => 1
  | .lequal => 2
  | .greater => 3
  | .gequal => 4
  | .equal => 5
  | .notequal => 6
  | .always => 7

/-- The factors of BLEND_FUNC (R124). -/
inductive BlendFactor where
  | zero | one | srcAlpha | dstAlpha | oneMinusSrcAlpha | oneMinusDstAlpha
deriving DecidableEq, Repr

/-- The numeric value of a blend factor (R124). -/
def blendFactorCode : BlendFactor → Int
  | .zero => 0
  | .one => 1
  | .srcAlpha => 2
  | .dstAlpha => 3
  | .oneMinusSrcAlpha => 4
  | .oneMinusDstAlpha => 5

/-- The actions of STENCIL_OP (R124). -/
inductive StencilAction where
  | zero | keep | replace | incr | decr | invert
deriving DecidableEq, Repr

/-- The numeric value of a stencil action (R124). -/
def stencilActionCode : StencilAction → Int
  | .zero => 0
  | .keep => 1
  | .replace => 2
  | .incr => 3
  | .decr => 4
  | .invert => 5

/-- The options of the string commands (R124). -/
inductive StringOption where
  | flat | centerX | centerY | center | rightX
deriving DecidableEq, Repr

/-- The numeric value of a string-command option (R124). -/
def stringOptionCode : StringOption → Int
  | .flat => 256
  | .centerX => 512
  | .centerY => 1024
  | .center => 1536
  | .rightX => 2048

end Sys2Proof.Machine
end

