-- ==== Sys2Proof/Machine/Memory.lean ====
section
/-! DEFINITION. The chip's byte-addressed space (R60) as a list of (address, byte) pairs in one canonical form:
addresses strictly rising and below 2^24, no byte 0. An unlisted address reads as 0 (log 4). -/

namespace Sys2Proof.Machine

/-- The bytes that differ from what an unlisted address reads as. -/
abbrev Memory := List Host.Cell

/-- What an unlisted address reads as (DESIGN CHOICE, log 4). -/
def Memory.unlisted : Byte := 0

/-- The byte at an address. -/
def Memory.get : Memory → Nat → Byte
  | [], _ => unlisted
  | (k, b) :: m, a => if k = a then b else get m a

/-- Puts a pair before the first greater address. -/
def Memory.insert : Memory → Nat → Byte → Memory
  | [], a, b => [(a, b)]
  | (k, c) :: m, a, b => if a < k then (a, b) :: (k, c) :: m else (k, c) :: insert m a b

/-- Removes every pair of an address. -/
def Memory.erase : Memory → Nat → Memory
  | [], _ => []
  | (k, c) :: m, a => if k = a then erase m a else (k, c) :: erase m a

/-- Writes one byte; writing the value an unlisted address reads as removes the pair. -/
def Memory.set (m : Memory) (a : Nat) (b : Byte) : Memory :=
  if b = unlisted then erase m a else insert (erase m a) a b

/-- The pairs rise strictly from `lo` on, lie in the address space and hold no unlisted byte. -/
def Memory.wfFrom : Nat → Memory → Bool
  | _, [] => true
  | lo, (k, b) :: m => decide (lo ≤ k) && decide (k < addressSpace) && decide (b ≠ unlisted) && wfFrom (k + 1) m

/-- The canonical form. -/
def Memory.wf (m : Memory) : Bool := wfFrom 0 m

/-- Writes bytes at consecutive addresses, modulo 2^24 (log 6). -/
def Memory.store : Memory → Nat → List Byte → Memory
  | m, _, [] => m
  | m, a, b :: bs => store (set m (a % addressSpace) b) (a + 1) bs

/-- Reads bytes at consecutive addresses, modulo 2^24 (log 6). -/
def Memory.load (m : Memory) : Nat → Nat → List Byte
  | _, 0 => []
  | a, n + 1 => get m (a % addressSpace) :: load m (a + 1) n

/-- What the chip changed in its own address space; a pair outside it names no byte and changes nothing (log 3). -/
def Memory.applyChip : Memory → List Host.Cell → Memory
  | m, [] => m
  | m, (a, b) :: cs => applyChip (if a < addressSpace then set m a b else m) cs

/-- The little-endian value of `n` bytes at an address, widened to 32 bits with zeros (R14, R61). -/
def Memory.value (m : Memory) (a n : Nat) : Word := BitVec.ofNat 32 (ofLeBytes (load m a n))

end Sys2Proof.Machine
end

