-- ==== Sys2Proof/Machine/State.lean ====
section
/-! DEFINITION. The state of the block (R30 to R45), its ports (R8), the chip's address space (R42, R60) and the inputs of
the caller and of the environment (R6, R75), all as plain data; and the state after reset (R600). -/

namespace Sys2Proof.Machine

/-- INIT_STATE (R34), in the order of its codes 0 to 7. -/
inductive InitState where
  | poweredDown | reset | active | clockConfigured | timingConfigured | displayEnabled | verified | failed
deriving DecidableEq, Repr

/-- DEB_STATE (R35), in the order of its codes 0 to 3. -/
inductive DebState where
  | noButton | debounce | detected | discard
deriving DecidableEq, Repr

/-- The causes of a failure (R501). -/
inductive Cause where
  /-- "underlying bus transaction did not complete" -/
  | transport
  /-- "a readback during initialization does not match the expected bit pattern" -/
  | verify
deriving DecidableEq, Repr

/-- The result on the response port (R15, R500). -/
inductive Result where
  | ok
  | fail (c : Cause)
  | refused
deriving DecidableEq, Repr

/-- The `path` output of INIT_PROBE (R340). -/
inductive InitPath where
  | adopted | forced
deriving DecidableEq, Repr

/-- The output values of an operation (R122 and each operation's rule). -/
inductive Output where
  | none
  | word   (w : Word)
  | words  (ws : List Word)
  | empty  (e : Bool)
  | path   (p : InitPath)
  | sample (valid : Bool) (x y : Half)
  | tag    (t : Byte)
  | coeff  (cs : List Word)
  | event  (e : Byte)
deriving DecidableEq, Repr

/-- What stands on the response port after an operation (R8, R500). -/
structure Response where
  result : Result
  output : Output
deriving DecidableEq, Repr

/-- One bus transaction or clock request the block issued (R8, R14, R512, R515). -/
inductive Event where
  /-- `host_command(code)` and whether it succeeded. DESIGN CHOICE (log 22): a code is 8 bits wide. -/
  | hostCommand (code : Byte) (ok : Bool)
  /-- `read(addr, width)`: the little-endian value read, `none` where the transaction failed. -/
  | read (addr : Addr) (width : Width) (value : Option Word)
  /-- `write(addr, bytes)`: the value its bytes spell and whether it succeeded. -/
  | write (addr : Addr) (width : Width) (value : Word) (ok : Bool)
  /-- `Sleep(d)`. -/
  | sleep (d : Nat)
deriving DecidableEq, Repr

/-- Why the machine stops with a fault: never. The block has no trap mechanism and every failure is a result code on the
response port (60_exceptions.md, R500, R506), so this type has no constructor, and no step faults (log 26; safe: nothing
is claimed of a fault). -/
inductive Fault
deriving DecidableEq, Repr

/-- Why a step has no meaning. The spec's own refusals (R15, R121, R123, R300) are answers on the response port and not
this outcome (log 9). -/
inductive Refusal where
  /-- Raised only by an arm of `exec` for an instruction that has no meaning yet; safe: no claim follows from it. -/
  | notModelled (mnemonic : String)
deriving DecidableEq, Repr

/-- The whole machine. -/
structure State where
  /-- CURSOR (R32). -/
  cursor      : BitVec 12
  /-- INITIALIZED (R33). -/
  initialized : Bool
  /-- INIT_STATE (R34). -/
  initState   : InitState
  /-- DEB_STATE (R35). -/
  debState    : DebState
  /-- LAST_TAG (R36). -/
  lastTag     : Byte
  /-- The response port; `none` before the first response (R8, log 11). -/
  response    : Option Response
  /-- The request port: the caller's requests still to be served, oldest first (R6, R8, log 1). -/
  requests    : List Request
  /-- The chip's address space (R42, R60, log 4). -/
  mem         : Memory
  /-- The environment's actions that are fixed from outside, oldest first; past its end `Config.envAction` (log 3). -/
  env         : List EnvAction
  /-- The number of bus transactions issued so far, the argument of `Config.envAction` (log 3). -/
  tick        : Nat
  /-- The transactions and clock requests issued since reset, oldest first (R512, log 12). -/
  trace       : List Event
  /-- The configuration, where one is given; `none` stands for `defaultParams` (R38, log 7). -/
  given       : Option Params
deriving DecidableEq, Repr

/-- The configuration of the machine (R10, R38). -/
def State.params (s : State) : Params := s.given.getD defaultParams

/-- The state after reset (R600): the five registers at their values, no response yet, no request, nothing listed in the
chip's space, no environment action fixed, nothing issued, no configuration given. -/
def State.reset : State where
  cursor := 0
  initialized := false
  initState := .poweredDown
  debState := .noButton
  lastTag := 0
  response := none
  requests := []
  mem := []
  env := []
  tick := 0
  trace := []
  given := none

end Sys2Proof.Machine
end

