-- ==== Sys2Proof/Machine/Operands.lean ====
section
/-! DEFINITION. Operand forms and address arithmetic: the notation of R12 and R13, the packing rule of R106, the header
words of R255, the FIFO address of R301 and the touch split of R374. -/

namespace Sys2Proof.Machine

/-- `mask_32` of an integer operand, as a word (R12). -/
def mask32 (v : Int) : Word := BitVec.ofNat 32 (mask 32 v)

/-- `mask_8` of an element of a byte string (R302). -/
def mask8 (v : Int) : Byte := BitVec.ofNat 8 (mask 8 v)

/-- `u16(v)` (R12). -/
def u16 (v : Int) : Nat := mask 16 v

/-- `s16(v)` (R12), which a caller may apply to a screen half (R372). -/
def s16 (v : Int) : Int := sext 16 (mask 16 v)

/-- `round_up4(n) = 4 * ceil(n / 4)` (R13). -/
def roundUp4 (n : Nat) : Nat := 4 * ((n + 3) / 4)

/-- The packing rule (R106): the opcode part or-ed with each operand masked to its width and shifted to its place. A
field is (width, low bit, operand). -/
def pack (opc : Nat) (fields : List (Nat × Nat × Int)) : Word :=
  BitVec.ofNat 32 (fields.foldl (fun acc f => acc ||| (mask f.1 f.2.2 <<< f.2.1)) opc)

/-- Two 16-bit parameters in one header word, the first in bits 15:0 (R105 format HW16, R255). -/
def hw16 (first second : Int) : Word := pack 0 [(16, 0, first), (16, 16, second)]

/-- `fifo_addr(i) = CMD_BASE + ((CURSOR + i) mod 4096)` (R301). -/
def fifoAddr (cursor : BitVec 12) (i : Nat) : Addr := BitVec.ofNat 24 (cmdBase + (cursor.toNat + i) % cmdSize)

/-- `(CURSOR + round_up4(n)) mod 4096`, the cursor after an append of `n` bytes (R302). -/
def advance (cursor : BitVec 12) (n : Nat) : BitVec 12 := BitVec.ofNat 12 ((cursor.toNat + roundUp4 n) % cmdSize)

/-- `SPLIT(r)`: x is `r[31:16]`, y is `r[15:0]` (R374). -/
def split (r : Word) : Half × Half := (BitVec.ofNat 16 (r.toNat / 2 ^ 16), BitVec.ofNat 16 (r.toNat % 2 ^ 16))

/-- The low `8n` bits of a value, what `MemWrite(addr, n, v)` writes (R14). -/
def truncTo (w : Width) (v : Word) : Word := BitVec.ofNat 32 (v.toNat % 2 ^ (8 * widthBytes w))

end Sys2Proof.Machine
end

