-- ==== Sys2Proof/Machine/Flags.lean ====
section
/-! DEFINITION. The status flag INITIALIZED (R33, R37: the block's only flag), the codes of the coded registers (R34, R35)
and of the result on the response port (R500). No operation sets a condition code, carry or overflow (R37). -/

namespace Sys2Proof.Machine

/-- The session becomes invalid: every initialization starts so (R33, R331). -/
def clearInitialized (s : State) : State := { s with initialized := false }

/-- The session becomes valid (R33, R337, R340). -/
def setInitialized (s : State) : State := { s with initialized := true }

/-- The 3-bit code of INIT_STATE (R34). -/
def initStateCode : InitState → BitVec 3
  | .poweredDown => 0
  | .reset => 1
  | .active => 2
  | .clockConfigured => 3
  | .timingConfigured => 4
  | .displayEnabled => 5
  | .verified => 6
  | .failed => 7

/-- The 2-bit code of DEB_STATE (R35). -/
def debStateCode : DebState → BitVec 2
  | .noButton => 0
  | .debounce => 1
  | .detected => 2
  | .discard => 3

/-- The 2-bit result code on the response port (R500). -/
def resultCode : Result → BitVec 2
  | .ok => 0
  | .fail .transport => 1
  | .fail .verify => 2
  | .refused => 3

end Sys2Proof.Machine
end

