-- ==== Sys2Proof/Machine/Ops.lean ====
section
/-! DEFINITION. The named operations over the state: the register updates, the response port, the request port, the bus
master and clock ports (R8, R14), and how an operation stops at its first failure (R14, R506, R507). -/

namespace Sys2Proof.Machine

/-! ### Register and port updates -/

/-- `CURSOR <- c` (R32). -/
def setCursor (c : BitVec 12) (s : State) : State := { s with cursor := c }

/-- `INIT_STATE <- i` (R34). -/
def setInitState (i : InitState) (s : State) : State := { s with initState := i }

/-- `DEB_STATE <- d` (R35). -/
def setDebState (d : DebState) (s : State) : State := { s with debState := d }

/-- `LAST_TAG <- t` (R36). -/
def setLastTag (t : Byte) (s : State) : State := { s with lastTag := t }

/-- An operation ends: its result and output stand on the response port (R14 `return`, `emit` and `raise`, R500). Every
failure ends here, with no other effect than those of the operation's rule (R506). -/
def respond (r : Result) (o : Output) (s : State) : State := { s with response := some ⟨r, o⟩ }

/-- A refused request: result code 3, no output, no transaction, no register changed (R15, R500, log 9). -/
def refuse (s : State) : State := respond .refused .none s

/-- The next request and the state with it taken off the request port (R6); nothing where the caller has issued none. -/
def fetch (s : State) : Option (Request × State) :=
  match s.requests with
  | [] => none
  | r :: rest => some (r, { s with requests := rest })

/-- The request port with one request put before the others. -/
def placeRequest (r : Request) (s : State) : State := { s with requests := r :: s.requests }

/-- A reset of the block while it is attached (R600): a new session. The five registers take their reset values and the
ports are empty; the chip keeps what it held, no transaction is issued, and the configuration stays (log 10). -/
def resetBlock (s : State) : State :=
  { s with cursor := 0, initialized := false, initState := .poweredDown, debState := .noButton, lastTag := noTag,
           response := none, requests := [] }

/-! ### The bus-master and clock ports -/

/-- What the environment does at the next transaction: the next action that is fixed from outside, else the free value
of this transaction's number (R75, log 3). -/
def envNext (s : State) : EnvAction :=
  match s.env with
  | [] => Config.envAction s.tick
  | a :: _ => a

/-- The environment acts before a transaction: the chip's changes land and the action is used up (R6, R70). -/
def envStep (s : State) : State :=
  { s with env := s.env.tail, tick := s.tick + 1, mem := Memory.applyChip s.mem (envNext s).chip }

/-- One more event on the trace (R512, R515). -/
def log (e : Event) (s : State) : State := { s with trace := s.trace ++ [e] }

/-- Bytes land in the chip's space. -/
def poke (a : Nat) (bs : List Byte) (s : State) : State := { s with mem := Memory.store s.mem a bs }

/-- Whether the next transaction succeeds (R75). -/
def busOk (s : State) : Bool := (envNext s).ok

/-- `MemWrite(addr, n, v)` (R14, R61): the state after one bus write, whole if it succeeds (R64) and without effect if it
fails (log 5). Whether it succeeded is `busOk` of the state before it. -/
def busWrite (a : Addr) (w : Width) (v : Word) (s : State) : State :=
  log (.write a w (truncTo w v) (busOk s))
    (if busOk s then poke a.toNat (leBytes (widthBytes w) v) (envStep s) else envStep s)

/-- The value the next bus read of this address yields, if it succeeds: what the chip's space holds once the chip has
made its own changes (R70, R75). -/
def busValue (a : Addr) (w : Width) (s : State) : Word := Memory.value (envStep s).mem a.toNat (widthBytes w)

/-- What `MemRead(addr, n)` yields (R14): a value, or nothing where the transaction fails. -/
def busRead (a : Addr) (w : Width) (s : State) : Option Word := if busOk s then some (busValue a w s) else none

/-- The state after one bus read (R14); a read changes no byte (R67, D37). -/
def afterRead (a : Addr) (w : Width) (s : State) : State := log (.read a w (busRead a w s)) (envStep s)

/-- The state after `HostCmd(code)` (R14). What it does to the chip is the environment's (R67, log 24). -/
def hostCommand (code : Byte) (s : State) : State := log (.hostCommand code (busOk s)) (envStep s)

/-- `Sleep(d)`: always completes, is recorded with its duration, changes nothing else (R512). -/
def sleep (d : Nat) (s : State) : State := log (.sleep d) s

/-! ### Stopping at the first failure (R14 `try` and `raise`) -/

/-- An operation under way: it goes on, or it has stopped with `raise Fail(c)`. -/
inductive Run where
  | passed (s : State)
  | failed (c : Cause) (s : State)
deriving DecidableEq, Repr

/-- Goes on with `k` unless the run has stopped (R507). -/
def andThen (r : Run) (k : State → Run) : Run :=
  match r with
  | .passed s => k s
  | .failed c s => .failed c s

/-- `try MemWrite` (R14). -/
def tryWrite (a : Addr) (w : Width) (v : Word) (s : State) : Run :=
  if busOk s then .passed (busWrite a w v s) else .failed .transport (busWrite a w v s)

/-- `try v <- MemRead`, then `k v` (R14). -/
def tryRead (a : Addr) (w : Width) (k : Word → State → Run) (s : State) : Run :=
  if busOk s then k (busValue a w s) (afterRead a w s) else .failed .transport (afterRead a w s)

/-- `try HostCmd` (R14). -/
def tryHostCommand (code : Byte) (s : State) : Run :=
  if busOk s then .passed (hostCommand code s) else .failed .transport (hostCommand code s)

/-- `try MemWrite` for each (address, width, value) in order; the first failure stops the rest (R69, R507). -/
def tryWrites : List (Addr × Width × Word) → State → Run
  | [], s => .passed s
  | (a, w, v) :: rest, s => andThen (tryWrite a w v s) (tryWrites rest)

/-- Ends an operation whose result is `ok` with `o` if the run passed, else the failure's cause with `o'` (R14, R500). -/
def finish (o o' : Output) : Run → State
  | .passed s => respond .ok o s
  | .failed c s => respond (.fail c) o' s

/-- The address, width and value of an entry of a register-write list (D13). -/
def regWrite (p : Params) (r : RegWrite) : Addr × Width × Word := (regAddr p r.reg, r.width, r.value)

end Sys2Proof.Machine
end

