-- ==== Sys2Proof/Machine/Touch.lean ====
section
/-! DEFINITION. TDEC, the touch decoder (R370 to R377). It reads and writes no register of the block and needs no
initialization (R370). -/

namespace Sys2Proof.Machine

/-- The sample a touch word stands for: no touch where the read failed or the word is the sentinel, else its halves
(R371, R372). The sentinel test is on the whole word (R375). -/
def touchSample (sentinel : Word) (read : Option Word) : Output :=
  match read with
  | none => .sample false 0 0
  | some r => if r = sentinel then .sample false 0 0 else .sample true (split r).1 (split r).2

/-- One 32-bit read of a touch register and its sample; the result is always `ok` (R370). -/
def sampleXy (reg : Reg) (sentinel : Word) (s : State) : State :=
  respond .ok (touchSample sentinel (busRead (regAddr s.params reg) .w32 s)) (afterRead (regAddr s.params reg) .w32 s)

/-- `GET_TOUCH_RAW_XY()` (R371). -/
def execGetTouchRawXy (s : State) : Host.Outcome State Fault Refusal := .next (sampleXy .touchRawXy rawSentinel s)

/-- `GET_TOUCH_SCREEN_XY()` (R372). -/
def execGetTouchScreenXy (s : State) : Host.Outcome State Fault Refusal :=
  .next (sampleXy .touchScreenXy screenSentinel s)

/-- The tag a read of REG_TOUCH_TAG stands for; a failed read is "no touch this poll" (R373, R394). -/
def tagOf (read : Option Word) : Byte :=
  match read with
  | some t => t.setWidth 8
  | none => noTag

/-- `GET_TOUCH_TAG()` (R373). -/
def execGetTouchTag (s : State) : Host.Outcome State Fault Refusal :=
  .next (respond .ok (.tag (tagOf (busRead (regAddr s.params .touchTag) .w8 s)))
    (afterRead (regAddr s.params .touchTag) .w8 s))

/-- The transform registers A to F (R66). -/
def transformRegs : List Reg :=
  [.touchTransformA, .touchTransformB, .touchTransformC, .touchTransformD, .touchTransformE, .touchTransformF]

/-- Reads the transform registers in order; the first failure stops with no coefficient output (R376). -/
def readCoeffs : List Reg → List Word → State → State
  | [], cs, s => respond .ok (.coeff cs) s
  | r :: rs, cs, s =>
    if busOk s then readCoeffs rs (cs ++ [busValue (regAddr s.params r) .w32 s]) (afterRead (regAddr s.params r) .w32 s)
    else respond (.fail .transport) .none (afterRead (regAddr s.params r) .w32 s)

/-- `GET_TOUCH_TRANSFORM()` (R376). -/
def execGetTouchTransform (s : State) : Host.Outcome State Fault Refusal := .next (readCoeffs transformRegs [] s)

/-- The six writes of SET_TOUCH_TRANSFORM, each operand masked to 32 bits (R377). -/
def coeffWrites (p : Params) (cs : List Int) : List (Addr × Width × Word) :=
  List.zipWith (fun r c => (regAddr p r, .w32, mask32 c)) transformRegs cs

/-- `SET_TOUCH_TRANSFORM(c0, c1, c2, c3, c4, c5)` (R377). -/
def execSetTouchTransform (c0 c1 c2 c3 c4 c5 : Int) (s : State) : Host.Outcome State Fault Refusal :=
  .next (finish .none .none (tryWrites (coeffWrites s.params [c0, c1, c2, c3, c4, c5]) s))

end Sys2Proof.Machine
end

