-- ==== Sys2Proof/Machine/Debounce.lean ====
section
/-! DEFINITION. DEB, the button debounce state machine (R390 to R396). -/

namespace Sys2Proof.Machine

/-- A tag is real unless it is `no_tag` or `untagged_icon`; 254 is real (R390). -/
def isReal (t : Byte) : Bool := t != noTag && t != untaggedIcon

/-- `DEB_STEP(state, last, t)`: the next state and the event (R393, the table's cells). -/
def debStep (state : DebState) (last t : Byte) : DebState × Byte :=
  match state with
  | .noButton => if isReal t then (.debounce, 0) else (.noButton, 0)
  | .debounce => if isReal t then (if t = last then (.detected, t) else (.debounce, 0)) else (.noButton, 0)
  | .detected =>
    if isReal t then (if t = last then (.detected, 0) else (.debounce, buttonReleased)) else (.noButton, buttonReleased)
  | .discard => if isReal t then (.discard, 0) else (.noButton, 0)

/-- The poll of tag `t`: the FSM steps, LAST_TAG is written in every state, the event is the output (R394). -/
def poll (t : Byte) (s : State) : State :=
  respond .ok (.event (debStep s.debState s.lastTag t).2)
    (setLastTag t (setDebState (debStep s.debState s.lastTag t).1 s))

/-- `BUTTON_POLL()` (R394): a failed read acts as a read of 0. -/
def execButtonPoll (s : State) : Host.Outcome State Fault Refusal :=
  .next (poll (tagOf (busRead (regAddr s.params .touchTag) .w8 s)) (afterRead (regAddr s.params .touchTag) .w8 s))

/-- `Discard` from every state but NoButton, which stays (R396). -/
def discardState : DebState → DebState
  | .noButton => .noButton
  | _ => .discard

/-- `DISCARD_ACTIVE_BUTTON()`: no transaction, LAST_TAG unchanged (R396). -/
def execDiscardActiveButton (s : State) : Host.Outcome State Fault Refusal :=
  .next (respond .ok .none (setDebState (discardState s.debState) s))

end Sys2Proof.Machine
end

