-- ==== Sys2Proof/Machine/EncDl.lean ====
section
/-! DEFINITION. ENC, the display-list instructions (R200 to R243). Each meaning packs its operands as its rule's
pseudocode says and emits one word; it writes no register and issues no transaction (R200). -/

namespace Sys2Proof.Machine

/-- `emit(word); return ok` for one word (R122, R200). -/
def emitWord (w : Word) (s : State) : Host.Outcome State Fault Refusal := .next (respond .ok (.word w) s)

/-- `DISPLAY()` (R203). -/
def execDisplay (s : State) : Host.Outcome State Fault Refusal :=
  emitWord (pack (0x00 <<< 24) []) s

/-- `BITMAP_SOURCE(addr)` (R204). -/
def execBitmapSource (addr : Int) (s : State) : Host.Outcome State Fault Refusal :=
  emitWord (pack (0x01 <<< 24) [(20, 0, addr)]) s

/-- `CLEAR_COLOR_RGB(red, green, blue)` (R205). -/
def execClearColorRgb (red green blue : Int) (s : State) : Host.Outcome State Fault Refusal :=
  emitWord (pack (0x02 <<< 24) [(8, 16, red), (8, 8, green), (8, 0, blue)]) s

/-- `TAG(s)` (R206). -/
def execTag (v : Int) (s : State) : Host.Outcome State Fault Refusal :=
  emitWord (pack (0x03 <<< 24) [(8, 0, v)]) s

/-- `COLOR_RGB(red, green, blue)` (R207). -/
def execColorRgb (red green blue : Int) (s : State) : Host.Outcome State Fault Refusal :=
  emitWord (pack (0x04 <<< 24) [(8, 16, red), (8, 8, green), (8, 0, blue)]) s

/-- `BITMAP_HANDLE(handle)` (R208). -/
def execBitmapHandle (handle : Int) (s : State) : Host.Outcome State Fault Refusal :=
  emitWord (pack (0x05 <<< 24) [(5, 0, handle)]) s

/-- `CELL(cell)` (R209). -/
def execCell (cellNo : Int) (s : State) : Host.Outcome State Fault Refusal :=
  emitWord (pack (0x06 <<< 24) [(7, 0, cellNo)]) s

/-- `BITMAP_LAYOUT(format, linestride, height)` (R210). -/
def execBitmapLayout (format linestride height : Int) (s : State) : Host.Outcome State Fault Refusal :=
  emitWord (pack (0x07 <<< 24) [(5, 19, format), (10, 9, linestride), (9, 0, height)]) s

/-- `BITMAP_SIZE(filter, wrapx, wrapy, width, height)` (R211). -/
def execBitmapSize (filter wrapx wrapy width height : Int) (s : State) : Host.Outcome State Fault Refusal :=
  emitWord (pack (0x08 <<< 24) [(1, 20, filter), (1, 19, wrapx), (1, 18, wrapy), (9, 9, width), (9, 0, height)]) s

/-- `ALPHA_FUNC(func, ref)` (R212). -/
def execAlphaFunc (func ref : Int) (s : State) : Host.Outcome State Fault Refusal :=
  emitWord (pack (0x09 <<< 24) [(3, 8, func), (8, 0, ref)]) s

/-- `STENCIL_FUNC(func, ref, mask)` (R213). -/
def execStencilFunc (func ref mask : Int) (s : State) : Host.Outcome State Fault Refusal :=
  emitWord (pack (0x0A <<< 24) [(4, 16, func), (8, 8, ref), (8, 0, mask)]) s

/-- `BLEND_FUNC(src, dst)` (R214). -/
def execBlendFunc (src dst : Int) (s : State) : Host.Outcome State Fault Refusal :=
  emitWord (pack (0x0B <<< 24) [(3, 3, src), (3, 0, dst)]) s

/-- `STENCIL_OP(sfail, spass)` (R215). -/
def execStencilOp (sfail spass : Int) (s : State) : Host.Outcome State Fault Refusal :=
  emitWord (pack (0x0C <<< 24) [(3, 3, sfail), (3, 0, spass)]) s

/-- `POINT_SIZE(size)` (R216). -/
def execPointSize (size : Int) (s : State) : Host.Outcome State Fault Refusal :=
  emitWord (pack (0x0D <<< 24) [(13, 0, size)]) s

/-- `LINE_WIDTH(width)` (R217). -/
def execLineWidth (width : Int) (s : State) : Host.Outcome State Fault Refusal :=
  emitWord (pack (0x0E <<< 24) [(12, 0, width)]) s

/-- `CLEAR_COLOR_A(alpha)` (R218). -/
def execClearColorA (alpha : Int) (s : State) : Host.Outcome State Fault Refusal :=
  emitWord (pack (0x0F <<< 24) [(8, 0, alpha)]) s

/-- `COLOR_A(alpha)` (R219). -/
def execColorA (alpha : Int) (s : State) : Host.Outcome State Fault Refusal :=
  emitWord (pack (0x10 <<< 24) [(8, 0, alpha)]) s

/-- `CLEAR_STENCIL(s)` (R220). -/
def execClearStencil (v : Int) (s : State) : Host.Outcome State Fault Refusal :=
  emitWord (pack (0x11 <<< 24) [(8, 0, v)]) s

/-- `CLEAR_TAG(t)` (R221). -/
def execClearTag (v : Int) (s : State) : Host.Outcome State Fault Refusal :=
  emitWord (pack (0x12 <<< 24) [(8, 0, v)]) s

/-- `STENCIL_MASK(mask)` (R222). -/
def execStencilMask (mask : Int) (s : State) : Host.Outcome State Fault Refusal :=
  emitWord (pack (0x13 <<< 24) [(8, 0, mask)]) s

/-- `TAG_MASK(mask)` (R223). -/
def execTagMask (mask : Int) (s : State) : Host.Outcome State Fault Refusal :=
  emitWord (pack (0x14 <<< 24) [(1, 0, mask)]) s

/-- `BITMAP_TRANSFORM_A(a)` (R224). -/
def execBitmapTransformA (a : Int) (s : State) : Host.Outcome State Fault Refusal :=
  emitWord (pack (0x15 <<< 24) [(17, 0, a)]) s

/-- `BITMAP_TRANSFORM_B(b)` (R225). -/
def execBitmapTransformB (b : Int) (s : State) : Host.Outcome State Fault Refusal :=
  emitWord (pack (0x16 <<< 24) [(17, 0, b)]) s

/-- `BITMAP_TRANSFORM_C(c)` (R226). -/
def execBitmapTransformC (c : Int) (s : State) : Host.Outcome State Fault Refusal :=
  emitWord (pack (0x17 <<< 24) [(24, 0, c)]) s

/-- `BITMAP_TRANSFORM_D(d)` (R227). -/
def execBitmapTransformD (d : Int) (s : State) : Host.Outcome State Fault Refusal :=
  emitWord (pack (0x18 <<< 24) [(17, 0, d)]) s

/-- `BITMAP_TRANSFORM_E(e)` (R228). -/
def execBitmapTransformE (e : Int) (s : State) : Host.Outcome State Fault Refusal :=
  emitWord (pack (0x19 <<< 24) [(17, 0, e)]) s

/-- `BITMAP_TRANSFORM_F(f)` (R229). -/
def execBitmapTransformF (f : Int) (s : State) : Host.Outcome State Fault Refusal :=
  emitWord (pack (0x1A <<< 24) [(24, 0, f)]) s

/-- `SCISSOR_XY(x, y)` (R230). -/
def execScissorXy (x y : Int) (s : State) : Host.Outcome State Fault Refusal :=
  emitWord (pack (0x1B <<< 24) [(9, 9, x), (9, 0, y)]) s

/-- `SCISSOR_SIZE(width, height)` (R231). -/
def execScissorSize (width height : Int) (s : State) : Host.Outcome State Fault Refusal :=
  emitWord (pack (0x1C <<< 24) [(10, 10, width), (10, 0, height)]) s

/-- `CALL(dest)` (R232). -/
def execCall (dest : Int) (s : State) : Host.Outcome State Fault Refusal :=
  emitWord (pack (0x1D <<< 24) [(16, 0, dest)]) s

/-- `JUMP(dest)` (R233). -/
def execJump (dest : Int) (s : State) : Host.Outcome State Fault Refusal :=
  emitWord (pack (0x1E <<< 24) [(16, 0, dest)]) s

/-- `BEGIN(prim)` (R234). -/
def execBeginPrim (prim : Int) (s : State) : Host.Outcome State Fault Refusal :=
  emitWord (pack (0x1F <<< 24) [(4, 0, prim)]) s

/-- `COLOR_MASK(r, g, b, a)` (R235). -/
def execColorMask (r g b a : Int) (s : State) : Host.Outcome State Fault Refusal :=
  emitWord (pack (0x20 <<< 24) [(1, 3, r), (1, 2, g), (1, 1, b), (1, 0, a)]) s

/-- `END()` (R236). -/
def execEndPrim (s : State) : Host.Outcome State Fault Refusal :=
  emitWord (pack (0x21 <<< 24) []) s

/-- `SAVE_CONTEXT()` (R237). -/
def execSaveContext (s : State) : Host.Outcome State Fault Refusal :=
  emitWord (pack (0x22 <<< 24) []) s

/-- `RESTORE_CONTEXT()` (R238). -/
def execRestoreContext (s : State) : Host.Outcome State Fault Refusal :=
  emitWord (pack (0x23 <<< 24) []) s

/-- `RETURN()` (R239). -/
def execReturnList (s : State) : Host.Outcome State Fault Refusal :=
  emitWord (pack (0x24 <<< 24) []) s

/-- `MACRO(m)` (R240). -/
def execMacroWord (m : Int) (s : State) : Host.Outcome State Fault Refusal :=
  emitWord (pack (0x25 <<< 24) [(1, 0, m)]) s

/-- `CLEAR(c, s, t)` (R241). -/
def execClear (color stencil tagBit : Int) (s : State) : Host.Outcome State Fault Refusal :=
  emitWord (pack (0x26 <<< 24) [(1, 2, color), (1, 1, stencil), (1, 0, tagBit)]) s

/-- `VERTEX2F(x, y)` (R242). -/
def execVertex2f (x y : Int) (s : State) : Host.Outcome State Fault Refusal :=
  emitWord (pack (0b01 <<< 30) [(15, 15, x), (15, 0, y)]) s

/-- `VERTEX2II(x, y, handle, cell)` (R243). -/
def execVertex2ii (x y handle cellNo : Int) (s : State) : Host.Outcome State Fault Refusal :=
  emitWord (pack (0b10 <<< 30) [(9, 21, x), (9, 12, y), (5, 7, handle), (7, 0, cellNo)]) s

end Sys2Proof.Machine
end

