-- ==== Sys2Proof/Machine/EncCoproc.lean ====
section
/-! DEFINITION. ENC, the coprocessor tokens and string-command headers (R250 to R258). Like every encoder they write no
register and issue no transaction (R250, R255). -/

namespace Sys2Proof.Machine

/-- `emit` of a list of header words, then `return ok` (R122, R255). -/
def emitWords (ws : List Word) (s : State) : Host.Outcome State Fault Refusal := .next (respond .ok (.words ws) s)

/-- `CMD_DLSTART()` (R252). -/
def execCmdDlstart (s : State) : Host.Outcome State Fault Refusal := emitWord 0xFFFFFF00 s

/-- `CMD_SWAP()` (R253). -/
def execCmdSwap (s : State) : Host.Outcome State Fault Refusal := emitWord 0xFFFFFF01 s

/-- `CMD_CALIBRATE()`: the token alone (R254). -/
def execCmdCalibrate (s : State) : Host.Outcome State Fault Refusal := emitWord 0xFFFFFF15 s

/-- `CMD_TEXT(x, y, font, options)` (R256). -/
def execCmdText (x y font options : Int) (s : State) : Host.Outcome State Fault Refusal :=
  emitWords [0xFFFFFF0C, hw16 x y, hw16 font options] s

/-- `CMD_BUTTON(x, y, w, h, font, options)` (R257). -/
def execCmdButton (x y w h font options : Int) (s : State) : Host.Outcome State Fault Refusal :=
  emitWords [0xFFFFFF0D, hw16 x y, hw16 w h, hw16 font options] s

/-- `CMD_SPINNER(x, y, style, scale)`: its header; whether a string follows is the caller's (R258, log 19). -/
def execCmdSpinner (x y style scale : Int) (s : State) : Host.Outcome State Fault Refusal :=
  emitWords [0xFFFFFF16, hw16 x y, hw16 style scale] s

end Sys2Proof.Machine
end

