-- ==== Sys2Proof/Machine/Fifo.lean ====
section
/-! DEFINITION. FWR, the FIFO writer (R300 to R309): appends bytes to the chip's 4096-byte ring and publishes the
cursor. No operation reads REG_CMD_READ before writing (R308) and none retries (R309). -/

namespace Sys2Proof.Machine

/-- An FWR operation needs INITIALIZED = 1, else the request is refused before any transaction (R300). -/
def whenInitialized (op : State → State) (s : State) : State := if s.initialized then op s else refuse s

/-- Step 1 of R302: one bus write per byte, the byte at logical offset `i` of the call going to `fifo_addr(i)` with the
cursor of the call's start (R301); the first failure stops the rest. -/
def writeBytes (cursor : BitVec 12) : Nat → List Int → State → Run
  | _, [], s => .passed s
  | i, b :: bs, s => andThen (tryWrite (fifoAddr cursor i) .w8 ((mask8 b).setWidth 32) s) (writeBytes cursor (i + 1) bs)

/-- Step 3 of R302: the cursor goes to the chip's write-pointer register, 32 bits wide (R64, R67). -/
def publish (s : State) : Run := tryWrite (regAddr s.params .cmdWrite) .w32 (s.cursor.setWidth 32) s

/-- `WRITE_BUFFER` past its precondition (R302): the bytes, then the cursor, then the publish. -/
def append (b : List Int) (s : State) : Run :=
  andThen (writeBytes s.cursor 0 b s) fun s1 => publish (setCursor (advance s.cursor b.length) s1)

/-- The four little-endian bytes of a word operand (R304). -/
def wordBytes (w : Int) : List Int := (leBytes 4 (mask32 w)).map fun b => (b.toNat : Int)

/-- `WRITE_WORD` past its precondition: `WRITE_BUFFER` of four little-endian bytes (R304). -/
def appendWord (w : Int) (s : State) : Run := append (wordBytes w) s

/-- The header words of a string command, each appended and published on its own (R305, R607). -/
def appendWords : List Int → State → Run
  | [], s => .passed s
  | w :: ws, s => andThen (appendWord w s) (appendWords ws)

/-- `WRITE_STRING_CMD` past its precondition: the header words, then the string and one zero byte (R305). -/
def appendString (h str : List Int) (s : State) : Run :=
  andThen (appendWords h s) (append (str ++ [0]))

/-- `WRITE_WORD(w)` (R304). -/
def execWriteWord (w : Int) (s : State) : Host.Outcome State Fault Refusal :=
  .next (whenInitialized (fun s => finish .none .none (appendWord w s)) s)

/-- `WRITE_BUFFER(b)` (R302). -/
def execWriteBuffer (b : List Int) (s : State) : Host.Outcome State Fault Refusal :=
  .next (whenInitialized (fun s => finish .none .none (append b s)) s)

/-- `WRITE_STRING_CMD(h, s)` (R305); an empty header list is no operand list of the rule and is refused (log 14). -/
def execWriteStringCmd (h str : List Int) (s : State) : Host.Outcome State Fault Refusal :=
  .next (if h.isEmpty then refuse s else whenInitialized (fun s => finish .none .none (appendString h str s)) s)

/-- Whether a value read from REG_CMD_READ equals the cursor: the whole 32-bit value is compared (R306). -/
def readsEmpty (cursor : BitVec 12) (r : Word) : Bool := r == cursor.setWidth 32

/-- The response of FIFO_EMPTY to the read (R306): a failed read gives `empty = 0`. -/
def fifoEmptyAnswer (cursor : BitVec 12) (read : Option Word) (s : State) : State :=
  match read with
  | some r => respond .ok (.empty (readsEmpty cursor r)) s
  | none => respond (.fail .transport) (.empty false) s

/-- `FIFO_EMPTY()` (R306). -/
def execFifoEmpty (s : State) : Host.Outcome State Fault Refusal :=
  .next (whenInitialized (fun s =>
    fifoEmptyAnswer s.cursor (busRead (regAddr s.params .cmdRead) .w32 s)
      (afterRead (regAddr s.params .cmdRead) .w32 s)) s)

end Sys2Proof.Machine
end

