-- ==== Sys2Proof/Machine/Init.lean ====
section
/-! DEFINITION. INIT, the initialization sequencer (R330 to R343): the six steps of the forced path, each gated on the
one before, and the probe path. -/

namespace Sys2Proof.Machine

/-- The start of every initialization operation; CURSOR is not changed (R331). -/
def startInit (s : State) : State := setInitState .poweredDown (clearInitialized s)

/-- Step 1, to Reset (R332). -/
def stepReset (s : State) : Run :=
  andThen (tryHostCommand s.params.hcReset s) fun s => .passed (setInitState .reset (sleep s.params.tReset s))

/-- Step 2 after the settle delay: the optional ID check (R333). -/
def checkId (s : State) : Run :=
  if s.params.verifyId then
    tryRead (regAddr s.params .id) .w8 (fun v s =>
      if v = s.params.expectedId.setWidth 32 then .passed s else .failed .verify s) s
  else .passed s

/-- Step 2, to Active (R333). -/
def stepActive (s : State) : Run :=
  andThen (tryHostCommand s.params.hcActive s) fun s =>
    andThen (checkId (sleep s.params.tActive s)) fun s => .passed (setInitState .active s)

/-- Step 3, to ClockConfigured (R334). -/
def stepClock (s : State) : Run :=
  andThen (tryHostCommand s.params.hcClkExt s) fun s => .passed (setInitState .clockConfigured (sleep s.params.tClk s))

/-- The thirteen timing writes of step 4, in the rule's order (R335). -/
def timingWrites (p : Params) : List (Addr × Width × Word) :=
  [(regAddr p .hcycle, .w16, p.panel.hcycle.setWidth 32),
   (regAddr p .hoffset, .w16, p.panel.hoffset.setWidth 32),
   (regAddr p .hsync0, .w16, p.panel.hsync0.setWidth 32),
   (regAddr p .hsync1, .w16, p.panel.hsync1.setWidth 32),
   (regAddr p .hsize, .w16, p.panel.hsize.setWidth 32),
   (regAddr p .vcycle, .w16, p.panel.vcycle.setWidth 32),
   (regAddr p .voffset, .w16, p.panel.voffset.setWidth 32),
   (regAddr p .vsync0, .w16, p.panel.vsync0.setWidth 32),
   (regAddr p .vsync1, .w16, p.panel.vsync1.setWidth 32),
   (regAddr p .vsize, .w16, p.panel.vsize.setWidth 32),
   (regAddr p .pclkPol, .w8, p.panel.pclkPol.setWidth 32),
   (regAddr p .swizzle, .w8, p.panel.swizzle.setWidth 32),
   (regAddr p .cspread, .w8, p.panel.cspread.setWidth 32)]

/-- Step 4, to TimingConfigured (R335). -/
def stepTiming (s : State) : Run :=
  andThen (tryWrites (timingWrites s.params) s) fun s => .passed (setInitState .timingConfigured s)

/-- The writes of step 5, in the rule's order: mute, the initial display list in RAM_DL, the swap, GPIO and the pixel
clock (R336). -/
def displayWrites (p : Params) : List (Addr × Width × Word) :=
  p.muteWrites.map (regWrite p) ++
  [(BitVec.ofNat 24 ramDlBase, .w32, 0x02000000),
   (BitVec.ofNat 24 (ramDlBase + 4), .w32, 0x26000007),
   (BitVec.ofNat 24 (ramDlBase + 8), .w32, 0x00000000),
   (regAddr p .dlswap, .w8, p.dlswapFrame.setWidth 32),
   (regAddr p .gpioDir, .w8, p.gpioDirValue.setWidth 32),
   (regAddr p .gpio, .w8, p.gpioValue.setWidth 32),
   (regAddr p .pclk, .w8, p.pclkDiv.setWidth 32)]

/-- Step 5, to DisplayEnabled (R336). -/
def stepDisplay (s : State) : Run :=
  andThen (tryWrites (displayWrites s.params) s) fun s => .passed (setInitState .displayEnabled s)

/-- `(gpio & GPIO_DISP_MASK) = GPIO_DISP_MASK` (R337). -/
def gpioShowsDisplay (p : Params) (g : Word) : Bool :=
  (g &&& p.gpioDispMask.setWidth 32) == p.gpioDispMask.setWidth 32

/-- `pclk = PANEL.PCLK_DIV` (R337). -/
def pclkShowsDivisor (p : Params) (v : Word) : Bool := v == p.pclkDiv.setWidth 32

/-- The unmute writes of step 6: the first failure stops the rest and is not reported (R337, D17). -/
def unmute : List RegWrite → State → State
  | [], s => s
  | r :: rs, s =>
    if busOk s then unmute rs (busWrite (regAddr s.params r.reg) r.width r.value s)
    else busWrite (regAddr s.params r.reg) r.width r.value s

/-- Step 6, to Verified: both readbacks, the check, then the session becomes valid with cursor 0, then unmute (R337). -/
def stepVerify (s : State) : Run :=
  tryRead (regAddr s.params .gpio) .w8 (fun g s =>
    tryRead (regAddr s.params .pclk) .w8 (fun v s =>
      if gpioShowsDisplay s.params g && pclkShowsDivisor s.params v then
        .passed (setInitState .verified (unmute s.params.unmuteWrites (setCursor 0 (setInitialized s))))
      else .failed .verify s) s) s

/-- Steps 1 to 6, each gated on the one before (R338). -/
def forcedSteps (s : State) : Run :=
  andThen (andThen (andThen (andThen (andThen (stepReset s) stepActive) stepClock) stepTiming) stepDisplay) stepVerify

/-- The end of an initialization: `ok`, or the failure with INIT_STATE = Failed (R338, R339). -/
def finishInit (o : Output) : Run → State
  | .passed s => respond .ok o s
  | .failed c s => respond (.fail c) o (setInitState .failed s)

/-- `INIT_FORCED()` (R338). -/
def execInitForced (s : State) : Host.Outcome State Fault Refusal :=
  .next (finishInit .none (forcedSteps (startInit s)))

/-- The inconclusive probe falls back to the forced path from step 1 (R340). -/
def probeForced (s : State) : State := finishInit (.path .forced) (forcedSteps s)

/-- The conclusive probe adopts the device's write pointer (R340). -/
def adopt (w : Word) (s : State) : State :=
  respond .ok (.path .adopted) (setInitState .verified (setInitialized (setCursor (BitVec.ofNat 12 w.toNat) s)))

/-- One probe read: `k` on the value, the forced path where the read fails or the value does not pass (R340). -/
def probeRead (a : Addr) (w : Width) (good : Word → Bool) (k : Word → State → State) (s : State) : State :=
  if busOk s && good (busValue a w s) then k (busValue a w s) (afterRead a w s) else probeForced (afterRead a w s)

/-- `w < 4096` and `w mod 4 = 0`: a write pointer the probe may adopt (R340, I16). -/
def adoptable (w : Word) : Bool := decide (w.toNat < cmdSize) && decide (w.toNat % 4 = 0)

/-- `INIT_PROBE()` (R340). -/
def execInitProbe (s : State) : Host.Outcome State Fault Refusal :=
  .next (probeRead (regAddr s.params .gpio) .w8 (gpioShowsDisplay s.params)
    (fun _ => probeRead (regAddr s.params .pclk) .w8 (pclkShowsDivisor s.params)
      (fun _ => probeRead (regAddr s.params .cmdWrite) .w32 adoptable adopt)) (startInit s))

end Sys2Proof.Machine
end

