-- ==== Sys2Proof/Machine/Dispatch.lean ====
section
/-! DEFINITION. The meaning of each operation, one arm per constructor of Instr. -/

namespace Sys2Proof.Machine

def exec (i : Instr) (s : State) : Host.Outcome State Fault Refusal :=
  match i with
  | .display => Sys2Proof.Machine.execDisplay s
  | .bitmapSource addr => Sys2Proof.Machine.execBitmapSource addr s
  | .clearColorRgb red green blue => Sys2Proof.Machine.execClearColorRgb red green blue s
  | .tag v => Sys2Proof.Machine.execTag v s
  | .colorRgb red green blue => Sys2Proof.Machine.execColorRgb red green blue s
  | .bitmapHandle handle => Sys2Proof.Machine.execBitmapHandle handle s
  | .cell cellNo => Sys2Proof.Machine.execCell cellNo s
  | .bitmapLayout format linestride height => Sys2Proof.Machine.execBitmapLayout format linestride height s
  | .bitmapSize filter wrapx wrapy width height => Sys2Proof.Machine.execBitmapSize filter wrapx wrapy width height s
  | .alphaFunc func ref => Sys2Proof.Machine.execAlphaFunc func ref s
  | .stencilFunc func ref mask => Sys2Proof.Machine.execStencilFunc func ref mask s
  | .blendFunc src dst => Sys2Proof.Machine.execBlendFunc src dst s
  | .stencilOp sfail spass => Sys2Proof.Machine.execStencilOp sfail spass s
  | .pointSize size => Sys2Proof.Machine.execPointSize size s
  | .lineWidth width => Sys2Proof.Machine.execLineWidth width s
  | .clearColorA alpha => Sys2Proof.Machine.execClearColorA alpha s
  | .colorA alpha => Sys2Proof.Machine.execColorA alpha s
  | .clearStencil v => Sys2Proof.Machine.execClearStencil v s
  | .clearTag v => Sys2Proof.Machine.execClearTag v s
  | .stencilMask mask => Sys2Proof.Machine.execStencilMask mask s
  | .tagMask mask => Sys2Proof.Machine.execTagMask mask s
  | .bitmapTransformA a => Sys2Proof.Machine.execBitmapTransformA a s
  | .bitmapTransformB b => Sys2Proof.Machine.execBitmapTransformB b s
  | .bitmapTransformC c => Sys2Proof.Machine.execBitmapTransformC c s
  | .bitmapTransformD d => Sys2Proof.Machine.execBitmapTransformD d s
  | .bitmapTransformE e => Sys2Proof.Machine.execBitmapTransformE e s
  | .bitmapTransformF f => Sys2Proof.Machine.execBitmapTransformF f s
  | .scissorXy x y => Sys2Proof.Machine.execScissorXy x y s
  | .scissorSize width height => Sys2Proof.Machine.execScissorSize width height s
  | .call dest => Sys2Proof.Machine.execCall dest s
  | .jump dest => Sys2Proof.Machine.execJump dest s
  | .beginPrim prim => Sys2Proof.Machine.execBeginPrim prim s
  | .colorMask r g b a => Sys2Proof.Machine.execColorMask r g b a s
  | .endPrim => Sys2Proof.Machine.execEndPrim s
  | .saveContext => Sys2Proof.Machine.execSaveContext s
  | .restoreContext => Sys2Proof.Machine.execRestoreContext s
  | .returnList => Sys2Proof.Machine.execReturnList s
  | .macroWord m => Sys2Proof.Machine.execMacroWord m s
  | .clear color stencil tagBit => Sys2Proof.Machine.execClear color stencil tagBit s
  | .vertex2f x y => Sys2Proof.Machine.execVertex2f x y s
  | .vertex2ii x y handle cellNo => Sys2Proof.Machine.execVertex2ii x y handle cellNo s
  | .cmdDlstart => Sys2Proof.Machine.execCmdDlstart s
  | .cmdSwap => Sys2Proof.Machine.execCmdSwap s
  | .cmdCalibrate => Sys2Proof.Machine.execCmdCalibrate s
  | .cmdText x y font options => Sys2Proof.Machine.execCmdText x y font options s
  | .cmdButton x y w h font options => Sys2Proof.Machine.execCmdButton x y w h font options s
  | .cmdSpinner x y style scale => Sys2Proof.Machine.execCmdSpinner x y style scale s
  | .writeWord w => Sys2Proof.Machine.execWriteWord w s
  | .writeBuffer b => Sys2Proof.Machine.execWriteBuffer b s
  | .writeStringCmd h str => Sys2Proof.Machine.execWriteStringCmd h str s
  | .fifoEmpty => Sys2Proof.Machine.execFifoEmpty s
  | .initForced => Sys2Proof.Machine.execInitForced s
  | .initProbe => Sys2Proof.Machine.execInitProbe s
  | .getTouchRawXy => Sys2Proof.Machine.execGetTouchRawXy s
  | .getTouchScreenXy => Sys2Proof.Machine.execGetTouchScreenXy s
  | .getTouchTag => Sys2Proof.Machine.execGetTouchTag s
  | .getTouchTransform => Sys2Proof.Machine.execGetTouchTransform s
  | .setTouchTransform c0 c1 c2 c3 c4 c5 => Sys2Proof.Machine.execSetTouchTransform c0 c1 c2 c3 c4 c5 s
  | .buttonPoll => Sys2Proof.Machine.execButtonPoll s
  | .discardActiveButton => Sys2Proof.Machine.execDiscardActiveButton s

end Sys2Proof.Machine
end

