-- ==== Sys2Proof/Machine/Step.lean ====
section
/-! DEFINITION. One step of the block: it serves the next request to completion (R6, R7). -/

namespace Sys2Proof.Machine

/-- One step. Without a request the block waits (R601, log 2); a request that spells no operation is refused (R121,
R123); any other runs its operation, the request taken off the port. -/
def step (s : State) : Host.Outcome State Fault Refusal :=
  match fetch s with
  | none => .next s
  | some (r, s1) =>
    match decode r with
    | .ok i => exec i s1
    | .error _ => .next (refuse s1)

/-- The state whose next request asks for the instruction with these table bits; nothing else changes (log 13). -/
def State.withFetchWord (s : State) (nbits w : Nat) : State := placeRequest (tableRequest nbits w) s

end Sys2Proof.Machine
end

