-- ==== Sys2Proof/Safety.lean ====
section
/-! DEFINITION. The terms claims are stated in: what the environment will do, the invariant of the machine, the legal bus
accesses, the caller's obligations of 70_reset_and_hazards.md, and runs of the debounce machine. -/

namespace Sys2Proof.Safety

open Sys2Proof.Machine

/-! ### The environment ahead (R75) -/

/-- What the environment does at the `k`-th bus transaction from now on. -/
def envAt (s : State) (k : Nat) : EnvAction := (s.env[k]?).getD (Config.envAction (s.tick + k))

/-- The next `n` transactions succeed. -/
def OkFor (n : Nat) (s : State) : Prop := ∀ k, k < n → (envAt s k).ok = true

/-- The next `n` transactions succeed and the chip changes nothing before them. -/
def QuietFor (n : Nat) (s : State) : Prop := ∀ k, k < n → (envAt s k).ok = true ∧ (envAt s k).chip = []

/-- The first failure is that of the `n`-th transaction from now on, counted from 0. -/
def FailsAt (n : Nat) (s : State) : Prop := OkFor n s ∧ (envAt s n).ok = false

/-- The chip's space at the next transaction, its own changes made (R70). -/
def memNext (s : State) : Memory := Memory.applyChip s.mem (envAt s 0).chip

/-- The registers of R30 other than those an operation names are unchanged: all five, and the configuration. -/
def SameRegisters (s t : State) : Prop :=
  t.cursor = s.cursor ∧ t.initialized = s.initialized ∧ t.initState = s.initState ∧
  t.debState = s.debState ∧ t.lastTag = s.lastTag ∧ t.given = s.given

/-- The four registers of R30 other than CURSOR, and the configuration, are unchanged. -/
def SameButCursor (s t : State) : Prop :=
  t.initialized = s.initialized ∧ t.initState = s.initState ∧ t.debState = s.debState ∧
  t.lastTag = s.lastTag ∧ t.given = s.given

/-! ### Legal accesses (R60, R63, R64, R65) -/

/-- A register map of the shape R63 and R65 ask for: every register a multiple of 4 in the register block, which lies
between its base and RAM_CMD, and no two registers at one address (log 8). R66's default has it. -/
def RegMapFits (p : Params) : Prop :=
  (∀ r ∈ registers, (regAddr p r).toNat % 4 = 0 ∧ regBase ≤ (regAddr p r).toNat ∧
    (regAddr p r).toNat + 4 ≤ cmdBase) ∧
  (registers.map (regAddr p)).Nodup

/-- An address of REGMAP (R66). -/
def isRegister (p : Params) (a : Addr) : Bool := registers.any fun r => regAddr p r == a

/-- A byte address of RAM_CMD (R65). -/
def inFifo (a : Addr) : Bool := decide (cmdBase ≤ a.toNat) && decide (a.toNat < cmdBase + cmdSize)

/-- One of the three display-list words INIT writes (R65: offsets 0, 4, 8 of RAM_DL). -/
def inInitialList (a : Addr) : Bool := a == 0x100000 || a == 0x100004 || a == 0x100008

/-- The address is a multiple of the access's bytes (R63). -/
def alignedFor (w : Width) (a : Addr) : Bool := a.toNat % widthBytes w == 0

/-- Reads are of registers; writes are of registers, of FIFO bytes one at a time, or of the initial display list (R63 to
R65); 16- and 32-bit accesses are aligned. Host commands and delays carry no address of their own. -/
def legalEvent (p : Params) : Event → Bool
  | .hostCommand _ _ => true
  | .sleep _ => true
  | .read a w _ => isRegister p a && alignedFor w a
  | .write a w _ _ => (isRegister p a && alignedFor w a) || (inFifo a && w == .w8) || (inInitialList a && w == .w32)

/-- A bus transaction that failed (R14). -/
def failedEvent : Event → Bool
  | .hostCommand _ ok => !ok
  | .sleep _ => false
  | .read _ _ v => v.isNone
  | .write _ _ _ ok => !ok

/-- The failed form of a transaction: the same request, not completed (R14). -/
def failing : Event → Event
  | .hostCommand c _ => .hostCommand c false
  | .sleep d => .sleep d
  | .read a w _ => .read a w none
  | .write a w v _ => .write a w v false

/-- A bus transaction: every event but a clock request (R8). -/
def isTransaction : Event → Bool
  | .sleep _ => false
  | _ => true

/-- A successful write stores to the byte address `x`. -/
def stores (x : Nat) : Event → Bool
  | .write a w _ true => decide (a.toNat ≤ x) && decide (x < a.toNat + widthBytes w)
  | _ => false

/-! ### The invariant -/

/-- CURSOR is a multiple of 4 (R32, R40). -/
def CursorAligned (s : State) : Prop := s.cursor.toNat % 4 = 0

/-- The session is valid exactly in INIT_STATE Verified (R33, R34). -/
def SessionAgrees (s : State) : Prop := s.initialized = true ↔ s.initState = .verified

/-- What every step keeps: the cursor aligned, the session flag and INIT_STATE in agreement, the chip's space in its
canonical form, only legal accesses issued, and of the configuration a pixel-clock divisor in 1..255 (R330) and a
register map of the shape R63 and R65 ask for. -/
def Inv (s : State) : Prop :=
  CursorAligned s ∧ SessionAgrees s ∧ Memory.wf s.mem = true ∧ s.trace.all (legalEvent s.params) = true ∧
  s.params.pclkDiv ≠ 0 ∧ RegMapFits s.params

/-! ### Which operations write which register (R32 to R36) -/

/-- The operations that write CURSOR (R32). -/
def writesCursor : Instr → Bool
  | .writeWord _ | .writeBuffer _ | .writeStringCmd _ _ | .initForced | .initProbe => true
  | _ => false

/-- The operations that write INITIALIZED and INIT_STATE (R33, R34). -/
def initializes : Instr → Bool
  | .initForced | .initProbe => true
  | _ => false

/-- The operations that write DEB_STATE (R35). -/
def writesDebState : Instr → Bool
  | .buttonPoll | .discardActiveButton => true
  | _ => false

/-- The operation that writes LAST_TAG (R36). -/
def writesLastTag : Instr → Bool
  | .buttonPoll => true
  | _ => false

/-! ### FIFO terms -/

/-- The bytes of a WRITE_BUFFER call as its byte writes, from logical offset `i` on (R301, R302), all successful. -/
def byteWrites (cursor : BitVec 12) : Nat → List Int → List Event
  | _, [] => []
  | i, b :: bs =>
    .write (BitVec.ofNat 24 (0x108000 + (cursor.toNat + i) % 4096)) .w8 (BitVec.ofNat 32 (mask 8 b)) true ::
      byteWrites cursor (i + 1) bs

/-- The publish of a cursor (R302 step 3), successful or not. -/
def publishEvent (p : Params) (cursor : BitVec 12) (ok : Bool) : Event :=
  .write (regAddr p .cmdWrite) .w32 (BitVec.ofNat 32 cursor.toNat) ok

/-- An append of `b` whose transactions all succeed: the byte writes, then the publish of the advanced cursor (R302). -/
def appendEvents (p : Params) (cursor : BitVec 12) (b : List Int) : List Event :=
  byteWrites cursor 0 b ++ [publishEvent p (BitVec.ofNat 12 ((cursor.toNat + roundUp4 b.length) % 4096)) true]

/-- The four bytes of a 32-bit operand, least significant first (R61, R304). -/
def fourBytes (w : Int) : List Int :=
  [((mask 32 w % 256 : Nat) : Int), ((mask 32 w / 256 % 256 : Nat) : Int), ((mask 32 w / 65536 % 256 : Nat) : Int),
   ((mask 32 w / 16777216 : Nat) : Int)]

/-- Byte strings appended one after the other, each published on its own (R304, R305, R307). -/
def streamEvents (p : Params) : BitVec 12 → List (List Int) → List Event
  | _, [] => []
  | cursor, b :: bs =>
    appendEvents p cursor b ++ streamEvents p (BitVec.ofNat 12 ((cursor.toNat + roundUp4 b.length) % 4096)) bs

/-- The bytes by which byte strings advance the cursor when each is appended on its own (R302). -/
def streamLength (bs : List (List Int)) : Nat := (bs.map fun b => roundUp4 b.length).sum

/-- The bus transactions that appending byte strings takes: one for each byte, one for each publish (R302). -/
def streamTransactions (bs : List (List Int)) : Nat := (bs.map fun b => b.length + 1).sum

/-- The byte string of a WRITE_WORD or WRITE_BUFFER (R302, R304). -/
def appended : Instr → Option (List Int)
  | .writeWord w => some (fourBytes w)
  | .writeBuffer b => some b
  | _ => none

/-- The FIFO offset `off` lies in the pending range `[readPtr, cursor)` mod 4096 (R43, R71). -/
def Pending (readPtr cursor off : Nat) : Prop := (off + 4096 - readPtr) % 4096 < (cursor + 4096 - readPtr) % 4096

/-- The overrun precondition of an append of `n` bytes (R606). -/
def NoOverrun (readPtr cursor n : Nat) : Prop := (cursor + 4096 - readPtr) % 4096 + roundUp4 n < 4096

/-- A display list as the caller must send it: CMD_DLSTART first, CMD_SWAP last (R259, R603). The block does not check
it. -/
def Framed (ws : List Word) : Prop := ws.head? = some 0xFFFFFF00 ∧ ws.getLast? = some 0xFFFFFF01 ∧ 2 ≤ ws.length

/-- What the caller appends for a spinner: a string command if the parameter says so, else the header words (R258). -/
def spinnerRequests (p : Params) (header : List Int) (str : List Int) : List Request :=
  if p.spinnerHasString then [encode (.writeStringCmd header str)] else header.map fun w => encode (.writeWord w)

/-! ### The forced path's transactions, in order (R332 to R337) -/

/-- A successful register write as an event. -/
def wrote (a : Addr) (w : Width) (v : Nat) : Event := .write a w (BitVec.ofNat 32 v) true

/-- A successful entry of a register-write list as an event. -/
def wroteEntry (p : Params) (r : RegWrite) : Event :=
  .write (regAddr p r.reg) r.width (truncTo r.width r.value) true

/-- Steps 1 to 5: what the block issues when every transaction succeeds and the ID is the expected one. -/
def forcedTraceToDisplay (p : Params) : List Event :=
  [.hostCommand p.hcReset true, .sleep p.tReset, .hostCommand p.hcActive true, .sleep p.tActive] ++
  (if p.verifyId then [.read (regAddr p .id) .w8 (some (BitVec.ofNat 32 p.expectedId.toNat))] else []) ++
  [.hostCommand p.hcClkExt true, .sleep p.tClk,
   wrote (regAddr p .hcycle) .w16 p.panel.hcycle.toNat, wrote (regAddr p .hoffset) .w16 p.panel.hoffset.toNat,
   wrote (regAddr p .hsync0) .w16 p.panel.hsync0.toNat, wrote (regAddr p .hsync1) .w16 p.panel.hsync1.toNat,
   wrote (regAddr p .hsize) .w16 p.panel.hsize.toNat, wrote (regAddr p .vcycle) .w16 p.panel.vcycle.toNat,
   wrote (regAddr p .voffset) .w16 p.panel.voffset.toNat, wrote (regAddr p .vsync0) .w16 p.panel.vsync0.toNat,
   wrote (regAddr p .vsync1) .w16 p.panel.vsync1.toNat, wrote (regAddr p .vsize) .w16 p.panel.vsize.toNat,
   wrote (regAddr p .pclkPol) .w8 p.panel.pclkPol.toNat, wrote (regAddr p .swizzle) .w8 p.panel.swizzle.toNat,
   wrote (regAddr p .cspread) .w8 p.panel.cspread.toNat] ++
  p.muteWrites.map (wroteEntry p) ++
  [wrote 0x100000 .w32 0x02000000, wrote 0x100004 .w32 0x26000007, wrote 0x100008 .w32 0,
   wrote (regAddr p .dlswap) .w8 p.dlswapFrame.toNat, wrote (regAddr p .gpioDir) .w8 p.gpioDirValue.toNat,
   wrote (regAddr p .gpio) .w8 p.gpioValue.toNat, wrote (regAddr p .pclk) .w8 p.pclkDiv.toNat]

/-- How many bus transactions steps 1 to 5 issue, and the two readbacks of step 6 (R332 to R337). -/
def forcedTransactions (p : Params) : Nat := 25 + (if p.verifyId then 1 else 0) + p.muteWrites.length

/-! ### Runs -/

/-- `n` steps in a row, from a state whose steps all answer a next state. -/
def runSteps : Nat → State → Host.Outcome State Fault Refusal
  | 0, s => .next s
  | n + 1, s =>
    match step s with
    | .next t => runSteps n t
    | other => other

/-- One operation of the debounce unit: a poll, or else a discard (R394, R396). -/
def debOperation (isPoll : Bool) : Instr := if isPoll then .buttonPoll else .discardActiveButton

/-- The states after each of a sequence of polls (`true`) and discards (`false`) that the block runs from `s`. -/
def debStates : State → List Bool → List State
  | _, [] => []
  | s, p :: ps =>
    match exec (debOperation p) s with
    | .next t => t :: debStates t ps
    | _ => []

/-- The event on the response port; 0 where the response carries none (R392). -/
def eventOf (s : State) : Byte :=
  match s.response with
  | some ⟨_, .event e⟩ => e
  | _ => 0

/-- A press event: neither "no event" nor the release value (R392). -/
def isPress (e : Byte) : Bool := e != 0 && e != 254

/-! ### Masked operands (R108) -/

/-- The operation with every operand reduced to its field: `mask_w` of an unsigned one, `sext(mask_w)` of a signed one
(R106 to R108). That `x` and `y` of a string-command header are signed on decoding is DEDUCED (log 21). The operations
that are no encoder stand as they are. -/
def maskOperands : Instr → Instr
  | .display => .display
  | .bitmapSource addr => .bitmapSource (Sys2Proof.mask 20 addr)
  | .clearColorRgb red green blue => .clearColorRgb (Sys2Proof.mask 8 red) (Sys2Proof.mask 8 green) (Sys2Proof.mask 8 blue)
  | .tag v => .tag (Sys2Proof.mask 8 v)
  | .colorRgb red green blue => .colorRgb (Sys2Proof.mask 8 red) (Sys2Proof.mask 8 green) (Sys2Proof.mask 8 blue)
  | .bitmapHandle handle => .bitmapHandle (Sys2Proof.mask 5 handle)
  | .cell cellNo => .cell (Sys2Proof.mask 7 cellNo)
  | .bitmapLayout format linestride height => .bitmapLayout (Sys2Proof.mask 5 format) (Sys2Proof.mask 10 linestride) (Sys2Proof.mask 9 height)
  | .bitmapSize filter wrapx wrapy width height => .bitmapSize (Sys2Proof.mask 1 filter) (Sys2Proof.mask 1 wrapx) (Sys2Proof.mask 1 wrapy) (Sys2Proof.mask 9 width) (Sys2Proof.mask 9 height)
  | .alphaFunc func ref => .alphaFunc (Sys2Proof.mask 3 func) (Sys2Proof.mask 8 ref)
  | .stencilFunc func ref mask => .stencilFunc (Sys2Proof.mask 4 func) (Sys2Proof.mask 8 ref) (Sys2Proof.mask 8 mask)
  | .blendFunc src dst => .blendFunc (Sys2Proof.mask 3 src) (Sys2Proof.mask 3 dst)
  | .stencilOp sfail spass => .stencilOp (Sys2Proof.mask 3 sfail) (Sys2Proof.mask 3 spass)
  | .pointSize size => .pointSize (Sys2Proof.mask 13 size)
  | .lineWidth width => .lineWidth (Sys2Proof.mask 12 width)
  | .clearColorA alpha => .clearColorA (Sys2Proof.mask 8 alpha)
  | .colorA alpha => .colorA (Sys2Proof.mask 8 alpha)
  | .clearStencil v => .clearStencil (Sys2Proof.mask 8 v)
  | .clearTag v => .clearTag (Sys2Proof.mask 8 v)
  | .stencilMask mask => .stencilMask (Sys2Proof.mask 8 mask)
  | .tagMask mask => .tagMask (Sys2Proof.mask 1 mask)
  | .bitmapTransformA a => .bitmapTransformA (sext 17 (Sys2Proof.mask 17 a))
  | .bitmapTransformB b => .bitmapTransformB (sext 17 (Sys2Proof.mask 17 b))
  | .bitmapTransformC c => .bitmapTransformC (sext 24 (Sys2Proof.mask 24 c))
  | .bitmapTransformD d => .bitmapTransformD (sext 17 (Sys2Proof.mask 17 d))
  | .bitmapTransformE e => .bitmapTransformE (sext 17 (Sys2Proof.mask 17 e))
  | .bitmapTransformF f => .bitmapTransformF (sext 24 (Sys2Proof.mask 24 f))
  | .scissorXy x y => .scissorXy (Sys2Proof.mask 9 x) (Sys2Proof.mask 9 y)
  | .scissorSize width height => .scissorSize (Sys2Proof.mask 10 width) (Sys2Proof.mask 10 height)
  | .call dest => .call (Sys2Proof.mask 16 dest)
  | .jump dest => .jump (Sys2Proof.mask 16 dest)
  | .beginPrim prim => .beginPrim (Sys2Proof.mask 4 prim)
  | .colorMask r g b a => .colorMask (Sys2Proof.mask 1 r) (Sys2Proof.mask 1 g) (Sys2Proof.mask 1 b) (Sys2Proof.mask 1 a)
  | .endPrim => .endPrim
  | .saveContext => .saveContext
  | .restoreContext => .restoreContext
  | .returnList => .returnList
  | .macroWord m => .macroWord (Sys2Proof.mask 1 m)
  | .clear color stencil tagBit => .clear (Sys2Proof.mask 1 color) (Sys2Proof.mask 1 stencil) (Sys2Proof.mask 1 tagBit)
  | .vertex2f x y => .vertex2f (sext 15 (Sys2Proof.mask 15 x)) (sext 15 (Sys2Proof.mask 15 y))
  | .vertex2ii x y handle cellNo => .vertex2ii (Sys2Proof.mask 9 x) (Sys2Proof.mask 9 y) (Sys2Proof.mask 5 handle) (Sys2Proof.mask 7 cellNo)
  | .cmdDlstart => .cmdDlstart
  | .cmdSwap => .cmdSwap
  | .cmdCalibrate => .cmdCalibrate
  | .cmdText x y font options => .cmdText (sext 16 (Sys2Proof.mask 16 x)) (sext 16 (Sys2Proof.mask 16 y)) (Sys2Proof.mask 16 font) (Sys2Proof.mask 16 options)
  | .cmdButton x y w h font options => .cmdButton (sext 16 (Sys2Proof.mask 16 x)) (sext 16 (Sys2Proof.mask 16 y)) (Sys2Proof.mask 16 w) (Sys2Proof.mask 16 h) (Sys2Proof.mask 16 font) (Sys2Proof.mask 16 options)
  | .cmdSpinner x y style scale => .cmdSpinner (sext 16 (Sys2Proof.mask 16 x)) (sext 16 (Sys2Proof.mask 16 y)) (Sys2Proof.mask 16 style) (Sys2Proof.mask 16 scale)
  | .writeWord w => .writeWord w
  | .writeBuffer b => .writeBuffer b
  | .writeStringCmd h str => .writeStringCmd h str
  | .fifoEmpty => .fifoEmpty
  | .initForced => .initForced
  | .initProbe => .initProbe
  | .getTouchRawXy => .getTouchRawXy
  | .getTouchScreenXy => .getTouchScreenXy
  | .getTouchTag => .getTouchTag
  | .getTouchTransform => .getTouchTransform
  | .setTouchTransform c0 c1 c2 c3 c4 c5 => .setTouchTransform c0 c1 c2 c3 c4 c5
  | .buttonPoll => .buttonPoll
  | .discardActiveButton => .discardActiveButton

/-- The results each operation may return (R502). -/
def allowedResults : Instr → List Result
  | .writeWord _ | .writeBuffer _ | .writeStringCmd _ _ | .fifoEmpty => [.ok, .fail .transport, .refused]
  | .initForced | .initProbe => [.ok, .fail .transport, .fail .verify]
  | .getTouchTransform | .setTouchTransform _ _ _ _ _ _ => [.ok, .fail .transport]
  | _ => [.ok]

end Sys2Proof.Safety
end

