-- ==== Sys2Proof/Certificates/Slice0/Obligations.lean ====
section
/-! DEFINITION. The statements for the provers, from the numbered rules of spec/. OBLIGATIONS.json lists them with their
rules; a statement that rests on a decision or an inference the spec marks as its own is listed as derived. -/

section

open Sys2Proof Sys2Proof.Machine Sys2Proof.Safety

/-- R203 to R213: the result of each encoder, for every operand. -/
def Obligations.ColorAndBitmapEncodersEmitTheirWords : Prop :=
  ∀ s : State,
    exec .display s = .next (respond .ok (.word 0x00000000) s) ∧
    (∀ addr : Int, exec (.bitmapSource addr) s = .next (respond .ok (.word (BitVec.ofNat 32 (0x01000000 + mask 20 addr))) s)) ∧
    (∀ red green blue : Int, exec (.clearColorRgb red green blue) s = .next (respond .ok (.word (BitVec.ofNat 32 (0x02000000 + mask 8 red * 2 ^ 16 + mask 8 green * 2 ^ 8 + mask 8 blue))) s)) ∧
    (∀ v : Int, exec (.tag v) s = .next (respond .ok (.word (BitVec.ofNat 32 (0x03000000 + mask 8 v))) s)) ∧
    (∀ red green blue : Int, exec (.colorRgb red green blue) s = .next (respond .ok (.word (BitVec.ofNat 32 (0x04000000 + mask 8 red * 2 ^ 16 + mask 8 green * 2 ^ 8 + mask 8 blue))) s)) ∧
    (∀ handle : Int, exec (.bitmapHandle handle) s = .next (respond .ok (.word (BitVec.ofNat 32 (0x05000000 + mask 5 handle))) s)) ∧
    (∀ cellNo : Int, exec (.cell cellNo) s = .next (respond .ok (.word (BitVec.ofNat 32 (0x06000000 + mask 7 cellNo))) s)) ∧
    (∀ format linestride height : Int, exec (.bitmapLayout format linestride height) s = .next (respond .ok (.word (BitVec.ofNat 32 (0x07000000 + mask 5 format * 2 ^ 19 + mask 10 linestride * 2 ^ 9 + mask 9 height))) s)) ∧
    (∀ filter wrapx wrapy width height : Int, exec (.bitmapSize filter wrapx wrapy width height) s = .next (respond .ok (.word (BitVec.ofNat 32 (0x08000000 + mask 1 filter * 2 ^ 20 + mask 1 wrapx * 2 ^ 19 + mask 1 wrapy * 2 ^ 18 + mask 9 width * 2 ^ 9 + mask 9 height))) s)) ∧
    (∀ func ref : Int, exec (.alphaFunc func ref) s = .next (respond .ok (.word (BitVec.ofNat 32 (0x09000000 + mask 3 func * 2 ^ 8 + mask 8 ref))) s)) ∧
    (∀ func ref maskBits : Int, exec (.stencilFunc func ref maskBits) s = .next (respond .ok (.word (BitVec.ofNat 32 (0x0A000000 + mask 4 func * 2 ^ 16 + mask 8 ref * 2 ^ 8 + mask 8 maskBits))) s))

/-- R214 to R223: the result of each encoder, for every operand. -/
def Obligations.BlendAndMaskEncodersEmitTheirWords : Prop :=
  ∀ s : State,
    (∀ src dst : Int, exec (.blendFunc src dst) s = .next (respond .ok (.word (BitVec.ofNat 32 (0x0B000000 + mask 3 src * 2 ^ 3 + mask 3 dst))) s)) ∧
    (∀ sfail spass : Int, exec (.stencilOp sfail spass) s = .next (respond .ok (.word (BitVec.ofNat 32 (0x0C000000 + mask 3 sfail * 2 ^ 3 + mask 3 spass))) s)) ∧
    (∀ size : Int, exec (.pointSize size) s = .next (respond .ok (.word (BitVec.ofNat 32 (0x0D000000 + mask 13 size))) s)) ∧
    (∀ width : Int, exec (.lineWidth width) s = .next (respond .ok (.word (BitVec.ofNat 32 (0x0E000000 + mask 12 width))) s)) ∧
    (∀ alpha : Int, exec (.clearColorA alpha) s = .next (respond .ok (.word (BitVec.ofNat 32 (0x0F000000 + mask 8 alpha))) s)) ∧
    (∀ alpha : Int, exec (.colorA alpha) s = .next (respond .ok (.word (BitVec.ofNat 32 (0x10000000 + mask 8 alpha))) s)) ∧
    (∀ v : Int, exec (.clearStencil v) s = .next (respond .ok (.word (BitVec.ofNat 32 (0x11000000 + mask 8 v))) s)) ∧
    (∀ v : Int, exec (.clearTag v) s = .next (respond .ok (.word (BitVec.ofNat 32 (0x12000000 + mask 8 v))) s)) ∧
    (∀ maskBits : Int, exec (.stencilMask maskBits) s = .next (respond .ok (.word (BitVec.ofNat 32 (0x13000000 + mask 8 maskBits))) s)) ∧
    (∀ maskBits : Int, exec (.tagMask maskBits) s = .next (respond .ok (.word (BitVec.ofNat 32 (0x14000000 + mask 1 maskBits))) s))

/-- R224 to R229: the result of each encoder, for every operand. -/
def Obligations.TransformEncodersEmitTheirWords : Prop :=
  ∀ s : State,
    (∀ a : Int, exec (.bitmapTransformA a) s = .next (respond .ok (.word (BitVec.ofNat 32 (0x15000000 + mask 17 a))) s)) ∧
    (∀ b : Int, exec (.bitmapTransformB b) s = .next (respond .ok (.word (BitVec.ofNat 32 (0x16000000 + mask 17 b))) s)) ∧
    (∀ c : Int, exec (.bitmapTransformC c) s = .next (respond .ok (.word (BitVec.ofNat 32 (0x17000000 + mask 24 c))) s)) ∧
    (∀ d : Int, exec (.bitmapTransformD d) s = .next (respond .ok (.word (BitVec.ofNat 32 (0x18000000 + mask 17 d))) s)) ∧
    (∀ e : Int, exec (.bitmapTransformE e) s = .next (respond .ok (.word (BitVec.ofNat 32 (0x19000000 + mask 17 e))) s)) ∧
    (∀ f : Int, exec (.bitmapTransformF f) s = .next (respond .ok (.word (BitVec.ofNat 32 (0x1A000000 + mask 24 f))) s))

/-- R230 to R241: the result of each encoder, for every operand. -/
def Obligations.ScissorAndContextEncodersEmitTheirWords : Prop :=
  ∀ s : State,
    (∀ x y : Int, exec (.scissorXy x y) s = .next (respond .ok (.word (BitVec.ofNat 32 (0x1B000000 + mask 9 x * 2 ^ 9 + mask 9 y))) s)) ∧
    (∀ width height : Int, exec (.scissorSize width height) s = .next (respond .ok (.word (BitVec.ofNat 32 (0x1C000000 + mask 10 width * 2 ^ 10 + mask 10 height))) s)) ∧
    (∀ dest : Int, exec (.call dest) s = .next (respond .ok (.word (BitVec.ofNat 32 (0x1D000000 + mask 16 dest))) s)) ∧
    (∀ dest : Int, exec (.jump dest) s = .next (respond .ok (.word (BitVec.ofNat 32 (0x1E000000 + mask 16 dest))) s)) ∧
    (∀ prim : Int, exec (.beginPrim prim) s = .next (respond .ok (.word (BitVec.ofNat 32 (0x1F000000 + mask 4 prim))) s)) ∧
    (∀ r g b a : Int, exec (.colorMask r g b a) s = .next (respond .ok (.word (BitVec.ofNat 32 (0x20000000 + mask 1 r * 2 ^ 3 + mask 1 g * 2 ^ 2 + mask 1 b * 2 ^ 1 + mask 1 a))) s)) ∧
    exec .endPrim s = .next (respond .ok (.word 0x21000000) s) ∧
    exec .saveContext s = .next (respond .ok (.word 0x22000000) s) ∧
    exec .restoreContext s = .next (respond .ok (.word 0x23000000) s) ∧
    exec .returnList s = .next (respond .ok (.word 0x24000000) s) ∧
    (∀ m : Int, exec (.macroWord m) s = .next (respond .ok (.word (BitVec.ofNat 32 (0x25000000 + mask 1 m))) s)) ∧
    (∀ color stencil tagBit : Int, exec (.clear color stencil tagBit) s = .next (respond .ok (.word (BitVec.ofNat 32 (0x26000000 + mask 1 color * 2 ^ 2 + mask 1 stencil * 2 ^ 1 + mask 1 tagBit))) s))

/-- R242, R243: the result of each encoder, for every operand. -/
def Obligations.VertexEncodersEmitTheirWords : Prop :=
  ∀ s : State,
    (∀ x y : Int, exec (.vertex2f x y) s = .next (respond .ok (.word (BitVec.ofNat 32 (0x40000000 + mask 15 x * 2 ^ 15 + mask 15 y))) s)) ∧
    (∀ x y handle cellNo : Int, exec (.vertex2ii x y handle cellNo) s = .next (respond .ok (.word (BitVec.ofNat 32 (0x80000000 + mask 9 x * 2 ^ 21 + mask 9 y * 2 ^ 12 + mask 5 handle * 2 ^ 7 + mask 7 cellNo))) s))

/-- R252, R253, and R254, whose token standing alone is the spec's decision D7. -/
def Obligations.TokenEncodersEmitTheirConstants : Prop :=
  ∀ s : State,
    exec .cmdDlstart s = .next (respond .ok (.word 0xFFFFFF00) s) ∧
    exec .cmdSwap s = .next (respond .ok (.word 0xFFFFFF01) s) ∧
    exec .cmdCalibrate s = .next (respond .ok (.word 0xFFFFFF15) s)

/-- The results of CMD_TEXT, CMD_BUTTON and CMD_SPINNER for every operand. The packing of two operands in one header word is the spec's decision D5. -/
def Obligations.StringHeaderEncodersEmitTheirWords : Prop :=
  ∀ s : State,
    (∀ x y font options : Int, exec (.cmdText x y font options) s = .next (respond .ok (.words [0xFFFFFF0C, BitVec.ofNat 32 (mask 16 x + mask 16 y * 2 ^ 16), BitVec.ofNat 32 (mask 16 font + mask 16 options * 2 ^ 16)]) s)) ∧
    (∀ x y w h font options : Int, exec (.cmdButton x y w h font options) s = .next (respond .ok (.words [0xFFFFFF0D, BitVec.ofNat 32 (mask 16 x + mask 16 y * 2 ^ 16), BitVec.ofNat 32 (mask 16 w + mask 16 h * 2 ^ 16), BitVec.ofNat 32 (mask 16 font + mask 16 options * 2 ^ 16)]) s)) ∧
    (∀ x y style scale : Int, exec (.cmdSpinner x y style scale) s = .next (respond .ok (.words [0xFFFFFF16, BitVec.ofNat 32 (mask 16 x + mask 16 y * 2 ^ 16), BitVec.ofNat 32 (mask 16 style + mask 16 scale * 2 ^ 16)]) s))

/-- R200, R250 (and the outputs of R122): each encoder is pure and answers ok with its encoding. -/
def Obligations.EncoderOperationsEmitTheEncodedWords : Prop :=
  ∀ (i : Instr) (ws : List Word) (s : State), encodeWords i = some ws →
    (∃ w, ws = [w] ∧ exec i s = .next (respond .ok (.word w) s)) ∨
    (2 ≤ ws.length ∧ exec i s = .next (respond .ok (.words ws) s))

/-- R108, the round-trip law, for every encoder and every operand. R109 decodes no header word: that the decoder reads those of CMD_TEXT, CMD_BUTTON and CMD_SPINNER back, x and y as signed, is the model's (log 21). -/
def Obligations.DecodingAnEncodedCommandGivesItBack : Prop :=
  ∀ (i : Instr) (ws rest : List Word), encodeWords i = some ws →
    decodeCommand (ws ++ rest) = .ok (maskOperands i, rest) ∧ (i.WellFormed → decodeCommand (ws ++ rest) = .ok (i, rest))

/-- The converse of R108: R109, R110 and the spec's decision D40 on non-canonical words. That header words are decoded, x and y signed, is the model's (log 21). -/
def Obligations.EveryDecodedCommandIsAnEncodedOne : Prop :=
  ∀ (ws rest : List Word) (i : Instr), decodeCommand ws = .ok (i, rest) →
    i.WellFormed ∧ ∃ es, encodeWords i = some es ∧ ws = es ++ rest

/-- R120, R121 under the spec's decisions D2 and D3. -/
def Obligations.RequestsAndOperationsCorrespond : Prop :=
  (∀ i : Instr, i.WellFormed → decode (encode i) = .ok i) ∧
    ∀ (r : Request) (i : Instr), decode r = .ok i → encode i = r

/-- R121 under the spec's decision D3; the clause on an empty header list is the model's choice (log 14). -/
def Obligations.RequestIsAcceptedExactlyWithItsOperandKinds : Prop :=
  ∀ r : Request, (∃ i, decode r = .ok i) ↔
    (operandKinds r.opsel = some (r.operands.map Operand.kind) ∧ ∀ b, r.operands ≠ [.words [], .bytes b])

/-- R123 under the spec's decision D2. -/
def Obligations.UnassignedCodesSpellNoOperation : Prop :=
  ∀ (r : Request) (n : Nat), r.opsel.toNat = n →
    (0x27 ≤ n ∧ n ≤ 0x3F ∨ 0x42 ≤ n ∧ n ≤ 0x4F ∨ 0x56 ≤ n ∧ n ≤ 0x5F ∨ 0x64 ≤ n ∧ n ≤ 0x6F ∨
      0x72 ≤ n ∧ n ≤ 0x7F ∨ 0x85 ≤ n ∧ n ≤ 0x8F ∨ 0x92 ≤ n ∧ n ≤ 0xFF) →
      decode r = .error (.unassignedOpsel r.opsel)

/-- Sanity: a few words written out from R205, R211, R224, R241 to R243, R253, R256, R257 and R110. That the header words of R256 and R257 are decoded is the model's (log 21). -/
def Obligations.WrittenOutWordsDecodeRight : Prop :=
  decodeCommand [0x02112233] = .ok (.clearColorRgb 17 34 51, []) ∧
    decodeCommand [0x0817C110] = .ok (.bitmapSize 1 0 1 480 272, []) ∧
    decodeCommand [0x1501FF00] = .ok (.bitmapTransformA (-256), []) ∧
    decodeCommand [0x26000007] = .ok (.clear 1 1 1, []) ∧
    decodeCommand [0xBFFFFFFF] = .ok (.vertex2ii 511 511 31 127, []) ∧
    decodeCommand [0x7FFF8001] = .ok (.vertex2f (-1) 1, []) ∧
    decodeCommand [0xFFFFFF01] = .ok (.cmdSwap, []) ∧
    decodeCommand [0xFFFFFF0C, 0x0014000A, 0x0000001A] = .ok (.cmdText 10 20 26 0, []) ∧
    decodeCommand [0xFFFFFF0D, 0x000A000A, 0x001E008C, 0x0100001C] = .ok (.cmdButton 10 10 140 30 28 256, []) ∧
    decodeCommand [0x27000000] = .error (.reservedWord 0x27000000) ∧
    decodeCommand [0xFFFFFF02] = .error (.unknownToken 0xFFFFFF02) ∧
    decodeCommand [0x03000100] = .error (.nonCanonical 0x03000100)

/-- R6, R7, R31: one request, one operation, one step. The request queue is the model's port (log 1). -/
def Obligations.StepRunsTheDecodedRequest : Prop :=
  (∀ (s : State) (r : Request) (rest : List Request) (i : Instr), s.requests = r :: rest → decode r = .ok i →
      step s = exec i { s with requests := rest }) ∧
    ∀ (s : State) (rest : List Request) (i : Instr), i.WellFormed → s.requests = encode i :: rest →
      step s = exec i { s with requests := rest }

/-- R15, R121, R123, R601 under the spec's decision D34; that refusal and waiting are next states is the model's choice (logs 2 and 9). -/
def Obligations.StepAnswersWhatItCannotRun : Prop :=
  (∀ (s : State) (r : Request) (rest : List Request) (e : DecodeError), s.requests = r :: rest → decode r = .error e →
      step s = .next { s with requests := rest, response := some ⟨.refused, .none⟩ }) ∧
    ∀ s : State, s.requests = [] → step s = .next s

/-- R600; three of the five values rest on the spec's decision D33. -/
def Obligations.ResetLeavesTheFiveRegistersAtTheirValues : Prop :=
  State.reset.cursor = 0 ∧ State.reset.initialized = false ∧ State.reset.initState = .poweredDown ∧
    initStateCode State.reset.initState = 0 ∧ State.reset.debState = .noButton ∧
    debStateCode State.reset.debState = 0 ∧ State.reset.lastTag = 0

/-- R600: the block's reset issues no transaction and changes no parameter; D33. -/
def Obligations.BlockResetKeepsTheChipAndTheConfiguration : Prop :=
  ∀ s : State,
    (resetBlock s).cursor = 0 ∧ (resetBlock s).initialized = false ∧ (resetBlock s).initState = .poweredDown ∧
    (resetBlock s).debState = .noButton ∧ (resetBlock s).lastTag = 0 ∧ (resetBlock s).mem = s.mem ∧
    (resetBlock s).trace = s.trace ∧ (resetBlock s).env = s.env ∧ (resetBlock s).tick = s.tick ∧
    (resetBlock s).given = s.given

/-- R40, R33, R34, R63 to R66, R330; the canonical form and the bounds of the register map (log 8) are the model's. -/
def Obligations.ResetSatisfiesTheInvariant : Prop :=
  Inv State.reset

/-- R40 and the marks of R33, R34, R63 to R65: an inference of the spec, so derived. The register map's bounds are the model's (log 8). -/
def Obligations.EveryStepKeepsTheInvariant : Prop :=
  ∀ s t : State, Inv s → step s = .next t → Inv t

/-- R39 with the writers R32 to R36 name; R38 (the spec's decision D1) for the configuration. The requests clause rests on the model's request queue (log 1), the last clause on decision D34 and the model's refusing and idle steps (logs 9 and 2). -/
def Obligations.RegistersChangeOnlyThroughTheirOperations : Prop :=
  (∀ (i : Instr) (s t : State), exec i s = .next t →
      t.given = s.given ∧ t.requests = s.requests ∧
      (writesCursor i = false → t.cursor = s.cursor) ∧
      (initializes i = false → t.initialized = s.initialized ∧ t.initState = s.initState) ∧
      (writesDebState i = false → t.debState = s.debState) ∧ (writesLastTag i = false → t.lastTag = s.lastTag)) ∧
    ∀ s t : State, step s = .next t → (∀ i r rest, s.requests = r :: rest → decode r ≠ .ok i) → SameRegisters s t

/-- R502 (an inference of the spec) and R610. -/
def Obligations.EveryOperationEndsWithAResultItMayReturn : Prop :=
  ∀ (i : Instr) (s : State), ∃ (t : State) (r : Response), exec i s = .next t ∧ t.response = some r ∧
    r.result ∈ allowedResults i ∧ (r.result = .refused → r.output = .none)

/-- R60, R63, R64, R65; parts of these are inferences or decisions of the spec. RegMapFits is a clause of the invariant Inv (log 8). -/
def Obligations.StepIssuesOnlyLegalAccesses : Prop :=
  ∀ s t : State, RegMapFits s.params → step s = .next t →
    ∃ es : List Event, t.trace = s.trace ++ es ∧ es.all (legalEvent s.params) = true

/-- R505, R507 (inferences of the spec) for every operation. -/
def Obligations.AFailureIsTheLastTransaction : Prop :=
  ∀ (i : Instr) (s t : State) (es : List Event), exec i s = .next t → t.trace = s.trace ++ es →
    (i ≠ .initProbe → ∀ e ∈ es.dropLast, failedEvent e = false) ∧
    ((∃ o, t.response = some ⟨.fail .transport, o⟩) → ∃ e, es.getLast? = some e ∧ failedEvent e = true) ∧
    (i ≠ .initProbe → (∃ o, t.response = some ⟨.fail .verify, o⟩) → ∀ e ∈ es, failedEvent e = false)

/-- The frame of every operation over the chip's space: R14, R42, R70. That a failed write changes no byte is the model's choice (log 5). -/
def Obligations.MemoryChangesOnlyByTheWritesIssued : Prop :=
  ∀ (i : Instr) (s t : State) (es : List Event) (x : Nat), RegMapFits s.params → exec i s = .next t →
    t.trace = s.trace ++ es → (∀ k, k < (es.filter isTransaction).length → (envAt s k).chip = []) →
    es.any (stores x) = false → Memory.get t.mem x = Memory.get s.mem x

/-- R14, R61 (decision D36), R64; that a failed write changes nothing is the model's choice (log 5). -/
def Obligations.ABusWriteStoresItsBytesLowFirst : Prop :=
  ∀ (a : Addr) (w : Width) (v : Word) (s : State), a.toNat + widthBytes w ≤ 0x1000000 → (envAt s 0).chip = [] →
    (busWrite a w v s).trace = s.trace ++ [.write a w (truncTo w v) (envAt s 0).ok] ∧
    ((envAt s 0).ok = true → ∀ k, k < widthBytes w →
      Memory.get (busWrite a w v s).mem (a.toNat + k) = BitVec.ofNat 8 (v.toNat / 2 ^ (8 * k))) ∧
    ∀ x, ((envAt s 0).ok = false ∨ x < a.toNat ∨ a.toNat + widthBytes w ≤ x) →
      Memory.get (busWrite a w v s).mem x = Memory.get s.mem x

/-- R14, R61, R67, R70 under the spec's decisions D36 and D37. -/
def Obligations.ABusReadChangesNoByteAndNoRegister : Prop :=
  ∀ (a : Addr) (w : Width) (s : State),
    SameRegisters s (afterRead a w s) ∧ (afterRead a w s).response = s.response ∧
    (afterRead a w s).requests = s.requests ∧ (afterRead a w s).mem = memNext s ∧
    (afterRead a w s).trace = s.trace ++
      [.read a w (if (envAt s 0).ok then some (Memory.value (memNext s) a.toNat (widthBytes w)) else none)]

/-- R34, R35, R500; the codes are the spec's own choice. -/
def Obligations.CodesAreAsListed : Prop :=
  [InitState.poweredDown, .reset, .active, .clockConfigured, .timingConfigured, .displayEnabled, .verified,
      .failed].map initStateCode = [0, 1, 2, 3, 4, 5, 6, 7] ∧
    [DebState.noButton, .debounce, .detected, .discard].map debStateCode = [0, 1, 2, 3] ∧
    [Result.ok, .fail .transport, .fail .verify, .refused].map resultCode = [0, 1, 2, 3]

/-- R301 to R303: the law of WRITE_BUFFER, for every length, 0 and more than 4096 included. The publish of length 0 is the spec's decision D25, the publish's width its decision D23. -/
def Obligations.WriteBufferAppendsAndPublishes : Prop :=
  ∀ (b : List Int) (s : State), s.initialized = true → OkFor (b.length + 1) s →
    ∃ t, exec (.writeBuffer b) s = .next t ∧ t.response = some ⟨.ok, .none⟩ ∧
      t.cursor.toNat = (s.cursor.toNat + roundUp4 b.length) % 4096 ∧ SameButCursor s t ∧ t.requests = s.requests ∧
      t.trace = s.trace ++ (byteWrites s.cursor 0 b ++ [publishEvent s.params t.cursor true])

/-- R302 on the chip's bytes: steps 1 and 3 and the unwritten padding (decision D22). -/
def Obligations.WriteBufferStoresItsBytesAndNothingElse : Prop :=
  ∀ (b : List Int) (s t : State), s.initialized = true → QuietFor (b.length + 1) s → RegMapFits s.params →
    exec (.writeBuffer b) s = .next t →
    (∀ (i : Nat) (h : i < b.length), b.length ≤ i + 4096 →
      Memory.get t.mem (0x108000 + (s.cursor.toNat + i) % 4096) = BitVec.ofNat 8 (mask 8 b[i])) ∧
    Memory.value t.mem (regAddr s.params .cmdWrite).toNat 4 = BitVec.ofNat 32 ((s.cursor.toNat + roundUp4 b.length) % 4096) ∧
    ∀ a, (∀ i, i < b.length → a ≠ 0x108000 + (s.cursor.toNat + i) % 4096) →
      (a < (regAddr s.params .cmdWrite).toNat ∨ (regAddr s.params .cmdWrite).toNat + 4 ≤ a) →
      Memory.get t.mem a = Memory.get s.mem a

/-- R302's failure at a byte write, with the spec's decision D21. -/
def Obligations.WriteBufferStopsAtAFailedByte : Prop :=
  ∀ (b : List Int) (s : State) (n : Nat) (hn : n < b.length), s.initialized = true → FailsAt n s →
    ∃ t, exec (.writeBuffer b) s = .next t ∧ t.response = some ⟨.fail .transport, .none⟩ ∧ SameRegisters s t ∧
      t.requests = s.requests ∧
      t.trace = s.trace ++ (byteWrites s.cursor 0 (b.take n) ++
        [.write (BitVec.ofNat 24 (0x108000 + (s.cursor.toNat + n) % 4096)) .w8 (BitVec.ofNat 32 (mask 8 b[n])) false])

/-- R302's failure at the publish, the spec's decision D21. -/
def Obligations.WriteBufferKeepsTheCursorAdvancedAfterAFailedPublish : Prop :=
  ∀ (b : List Int) (s : State), s.initialized = true → FailsAt b.length s →
    ∃ t, exec (.writeBuffer b) s = .next t ∧ t.response = some ⟨.fail .transport, .none⟩ ∧
      t.cursor.toNat = (s.cursor.toNat + roundUp4 b.length) % 4096 ∧ SameButCursor s t ∧ t.requests = s.requests ∧
      t.trace = s.trace ++ (byteWrites s.cursor 0 b ++ [publishEvent s.params t.cursor false])

/-- R304, with R62's inference that a word never straddles the wrap; the publish's width is the spec's decision D23. -/
def Obligations.WriteWordAppendsFourBytesLowFirst : Prop :=
  (∀ (w : Int) (s : State), exec (.writeWord w) s = exec (.writeBuffer (fourBytes w)) s) ∧
    ∀ (w : Int) (s : State), s.initialized = true → s.cursor.toNat % 4 = 0 → OkFor 5 s →
      ∃ t, exec (.writeWord w) s = .next t ∧ t.response = some ⟨.ok, .none⟩ ∧
        t.cursor.toNat = (s.cursor.toNat + 4) % 4096 ∧ SameButCursor s t ∧ t.requests = s.requests ∧
        t.trace = s.trace ++
          [.write (BitVec.ofNat 24 (0x108000 + s.cursor.toNat)) .w8 (BitVec.ofNat 32 (mask 32 w % 256)) true,
           .write (BitVec.ofNat 24 (0x108001 + s.cursor.toNat)) .w8 (BitVec.ofNat 32 (mask 32 w / 2 ^ 8 % 256)) true,
           .write (BitVec.ofNat 24 (0x108002 + s.cursor.toNat)) .w8 (BitVec.ofNat 32 (mask 32 w / 2 ^ 16 % 256)) true,
           .write (BitVec.ofNat 24 (0x108003 + s.cursor.toNat)) .w8 (BitVec.ofNat 32 (mask 32 w / 2 ^ 24)) true,
           .write (regAddr s.params .cmdWrite) .w32 (BitVec.ofNat 32 ((s.cursor.toNat + 4) % 4096)) true]

/-- R305, R607 under the spec's decision D26. -/
def Obligations.WriteStringCmdAppendsHeaderThenString : Prop :=
  ∀ (h str : List Int) (s : State), h ≠ [] → s.initialized = true → OkFor (5 * h.length + str.length + 2) s →
    ∃ t, exec (.writeStringCmd h str) s = .next t ∧ t.response = some ⟨.ok, .none⟩ ∧
      t.cursor.toNat = (s.cursor.toNat + 4 * h.length + roundUp4 (str.length + 1)) % 4096 ∧
      SameButCursor s t ∧ t.requests = s.requests ∧
      t.trace = s.trace ++ streamEvents s.params s.cursor (h.map fourBytes ++ [str ++ [0]])

/-- R305's exceptions under the spec's decisions D21 and D26. -/
def Obligations.WriteStringCmdStopsWhereItFails : Prop :=
  ∀ (h str : List Int) (s : State) (n : Nat), h ≠ [] → s.initialized = true → FailsAt n s →
    n < 5 * h.length + str.length + 2 →
    ∃ t, exec (.writeStringCmd h str) s = .next t ∧ t.response = some ⟨.fail .transport, .none⟩ ∧
      SameButCursor s t ∧ t.requests = s.requests ∧
      t.cursor.toNat = (s.cursor.toNat +
        (if n < 5 * h.length then 4 * (n / 5) + (if n % 5 = 4 then 4 else 0)
         else 4 * h.length + (if n = 5 * h.length + str.length + 1 then roundUp4 (str.length + 1) else 0))) % 4096 ∧
      ∃ e, (streamEvents s.params s.cursor (h.map fourBytes ++ [str ++ [0]]))[n]? = some e ∧
        t.trace = s.trace ++
          ((streamEvents s.params s.cursor (h.map fourBytes ++ [str ++ [0]])).take n ++ [failing e])

/-- R306; the output of a failed read is the spec's decision D24. afterRead is the state after one read. -/
def Obligations.FifoEmptyComparesTheReadPointerWithTheCursor : Prop :=
  ∀ s : State, s.initialized = true →
    exec .fifoEmpty s = .next
      (if (envAt s 0).ok then
        respond .ok (.empty (decide ((Memory.value (memNext s) (regAddr s.params .cmdRead).toNat 4).toNat = s.cursor.toNat)))
          (afterRead (regAddr s.params .cmdRead) .w32 s)
      else respond (.fail .transport) (.empty false) (afterRead (regAddr s.params .cmdRead) .w32 s))

/-- R300 under the spec's decision D20; the last clause is the model's choice (log 14), and so is that a refusal is a next state (log 9). -/
def Obligations.FifoOperationsAreRefusedBeforeInitialization : Prop :=
  (∀ s : State, s.initialized = false →
      (∀ w, exec (.writeWord w) s = .next { s with response := some ⟨.refused, .none⟩ }) ∧
      (∀ b, exec (.writeBuffer b) s = .next { s with response := some ⟨.refused, .none⟩ }) ∧
      (∀ h str, exec (.writeStringCmd h str) s = .next { s with response := some ⟨.refused, .none⟩ }) ∧
      exec .fifoEmpty s = .next { s with response := some ⟨.refused, .none⟩ }) ∧
    ∀ (str : List Int) (s : State), exec (.writeStringCmd [] str) s = .next { s with response := some ⟨.refused, .none⟩ }

/-- R307: the order of appends, and that each is complete before the next begins. The queue of requests is the model's port (log 1); that an empty buffer publishes is the spec's decision D25. -/
def Obligations.AppendsReachTheRingInTheCallersOrder : Prop :=
  ∀ (ops : List Instr) (bs : List (List Int)) (s : State) (rest : List Request),
    ops.map appended = bs.map some → s.initialized = true → s.requests = ops.map encode ++ rest →
    OkFor (streamTransactions bs) s →
      ∃ t, runSteps ops.length s = .next t ∧ t.requests = rest ∧ SameButCursor s t ∧
        t.cursor.toNat = (s.cursor.toNat + streamLength bs) % 4096 ∧
        t.trace = s.trace ++ streamEvents s.params s.cursor bs

/-- R606, an inference of the spec; the chip having consumed nothing past CURSOR is in the definition of the range. -/
def Obligations.AnAppendThatFitsOverwritesNoPendingByte : Prop :=
  ∀ (b : List Int) (readPtr : Nat) (s t : State) (es : List Event), readPtr < 4096 →
    NoOverrun readPtr s.cursor.toNat b.length → exec (.writeBuffer b) s = .next t → t.trace = s.trace ++ es →
      ∀ (a : Addr) (v : Word) (ok : Bool), .write a .w8 v ok ∈ es →
        0x108000 ≤ a.toNat ∧ a.toNat < 0x109000 ∧ ¬ Pending readPtr s.cursor.toNat (a.toNat - 0x108000)

/-- R331 to R338 on a chip that echoes writes; widths, order and checks rest on the spec's decisions D12, D14, D15 and D17. The parameters' own widths, 8 bits for a host code, are the model's (log 22), here and in every statement about INIT_FORCED. -/
def Obligations.InitForcedVerifiesAnEchoingChip : Prop :=
  ∀ s : State, RegMapFits s.params → QuietFor (forcedTransactions s.params) s →
    (s.params.verifyId = true → Memory.get s.mem (regAddr s.params .id).toNat = s.params.expectedId) →
    s.params.gpioValue &&& s.params.gpioDispMask = s.params.gpioDispMask →
    ∃ (t : State) (es : List Event), exec .initForced s = .next t ∧ t.response = some ⟨.ok, .none⟩ ∧
      t.initState = .verified ∧ t.initialized = true ∧ t.cursor = 0 ∧ t.debState = s.debState ∧
      t.lastTag = s.lastTag ∧ t.given = s.given ∧ t.requests = s.requests ∧
      t.trace = s.trace ++ (forcedTraceToDisplay s.params ++
        [.read (regAddr s.params .gpio) .w8 (some (s.params.gpioValue.setWidth 32)),
         .read (regAddr s.params .pclk) .w8 (some (s.params.pclkDiv.setWidth 32))] ++ es) ∧
      (OkFor (forcedTransactions s.params + s.params.unmuteWrites.length) s →
        es = s.params.unmuteWrites.map (wroteEntry s.params)) ∧
      ∀ (j : Nat) (hj : j < s.params.unmuteWrites.length), FailsAt (forcedTransactions s.params + j) s →
        es = (s.params.unmuteWrites.take j).map (wroteEntry s.params) ++ [failing (wroteEntry s.params s.params.unmuteWrites[j])]

/-- R341 (an inference of the spec with the source's scenario), R333, R339. -/
def Obligations.InitForcedAbortsOnAWrongId : Prop :=
  ∀ s : State, s.params.verifyId = true → QuietFor 3 s → Memory.get s.mem (regAddr s.params .id).toNat ≠ s.params.expectedId →
    ∃ t, exec .initForced s = .next t ∧ t.response = some ⟨.fail .verify, .none⟩ ∧ t.initState = .failed ∧
      t.initialized = false ∧ t.cursor = s.cursor ∧ t.debState = s.debState ∧ t.lastTag = s.lastTag ∧
      t.given = s.given ∧ t.requests = s.requests ∧ t.mem = s.mem ∧
      t.trace = s.trace ++ [.hostCommand s.params.hcReset true, .sleep s.params.tReset,
        .hostCommand s.params.hcActive true, .sleep s.params.tActive,
        .read (regAddr s.params .id) .w8 (some ((Memory.get s.mem (regAddr s.params .id).toNat).setWidth 32))]

/-- R338, R339, R341: gate order and abort; decision D16. -/
def Obligations.InitForcedStopsAtTheFirstFailedTransaction : Prop :=
  ∀ (s : State) (n : Nat), RegMapFits s.params → QuietFor n s → (envAt s n).ok = false →
    n < forcedTransactions s.params → (2 < n → s.params.verifyId = true → Memory.get s.mem (regAddr s.params .id).toNat = s.params.expectedId) →
    ∃ (t : State) (before after : List Event) (e : Event), exec .initForced s = .next t ∧
      t.response = some ⟨.fail .transport, .none⟩ ∧ t.initState = .failed ∧ t.initialized = false ∧
      t.cursor = s.cursor ∧ t.debState = s.debState ∧ t.lastTag = s.lastTag ∧ t.given = s.given ∧
      t.requests = s.requests ∧
      forcedTraceToDisplay s.params ++ [.read (regAddr s.params .gpio) .w8 (some (s.params.gpioValue.setWidth 32)),
        .read (regAddr s.params .pclk) .w8 (some (s.params.pclkDiv.setWidth 32))] = before ++ e :: after ∧
      isTransaction e = true ∧ (before.filter isTransaction).length = n ∧
      t.trace = s.trace ++ (before ++ [failing e])

/-- R337, R339: the check of step 6 under the spec's decision D15. The memory m is the chip's space at the first readback. -/
def Obligations.InitForcedChecksTheDisplayReadback : Prop :=
  ∀ (s : State) (g p : Byte) (m : Memory), OkFor (forcedTransactions s.params) s →
    QuietFor (forcedTransactions s.params - 2) s →
    (s.params.verifyId = true → Memory.get s.mem (regAddr s.params .id).toNat = s.params.expectedId) →
    m = Memory.applyChip
      ((displayWrites s.params).foldl (fun m x => Memory.store m x.1.toNat (leBytes (widthBytes x.2.1) x.2.2))
        ((timingWrites s.params).foldl (fun m x => Memory.store m x.1.toNat (leBytes (widthBytes x.2.1) x.2.2))
          s.mem)) (envAt s (forcedTransactions s.params - 2)).chip →
    g = Memory.get m (regAddr s.params .gpio).toNat →
    p = Memory.get (Memory.applyChip m (envAt s (forcedTransactions s.params - 1)).chip) (regAddr s.params .pclk).toNat →
    (g &&& s.params.gpioDispMask ≠ s.params.gpioDispMask ∨ p ≠ s.params.pclkDiv) →
    ∃ t, exec .initForced s = .next t ∧ t.response = some ⟨.fail .verify, .none⟩ ∧ t.initState = .failed ∧
      t.initialized = false ∧ t.cursor = s.cursor ∧ t.debState = s.debState ∧ t.lastTag = s.lastTag ∧
      t.given = s.given ∧ t.requests = s.requests ∧
      t.trace = s.trace ++ (forcedTraceToDisplay s.params ++
        [.read (regAddr s.params .gpio) .w8 (some (g.setWidth 32)), .read (regAddr s.params .pclk) .w8 (some (p.setWidth 32))])

/-- R338, R339, R340 for every environment; decisions D16 and D18. -/
def Obligations.InitializationEndsVerifiedOrFailed : Prop :=
  ∀ s : State,
    (∃ t, exec .initForced s = .next t ∧
      (t.debState = s.debState ∧ t.lastTag = s.lastTag ∧ t.given = s.given ∧ t.requests = s.requests) ∧
      ((t.response = some ⟨.ok, .none⟩ ∧ t.initState = .verified ∧ t.initialized = true ∧ t.cursor = 0) ∨
       (∃ c, t.response = some ⟨.fail c, .none⟩) ∧ t.initState = .failed ∧ t.initialized = false ∧
        t.cursor = s.cursor)) ∧
    ∃ t, exec .initProbe s = .next t ∧
      (t.debState = s.debState ∧ t.lastTag = s.lastTag ∧ t.given = s.given ∧ t.requests = s.requests) ∧
      ((t.response = some ⟨.ok, .path .adopted⟩ ∧ t.initState = .verified ∧ t.initialized = true ∧
          t.cursor.toNat % 4 = 0) ∨
       (t.response = some ⟨.ok, .path .forced⟩ ∧ t.initState = .verified ∧ t.initialized = true ∧ t.cursor = 0) ∨
       (∃ c, t.response = some ⟨.fail c, .path .forced⟩) ∧ t.initState = .failed ∧ t.initialized = false ∧
        t.cursor = s.cursor)

/-- R340's adopted path, the spec's decision D18. -/
def Obligations.InitProbeAdoptsARunningDisplay : Prop :=
  ∀ (s : State) (w : Nat), QuietFor 3 s →
    Memory.get s.mem (regAddr s.params .gpio).toNat &&& s.params.gpioDispMask = s.params.gpioDispMask →
    Memory.get s.mem (regAddr s.params .pclk).toNat = s.params.pclkDiv → (Memory.value s.mem (regAddr s.params .cmdWrite).toNat 4).toNat = w → w < 4096 → w % 4 = 0 →
    ∃ t, exec .initProbe s = .next t ∧ t.response = some ⟨.ok, .path .adopted⟩ ∧ t.cursor.toNat = w ∧
      t.initialized = true ∧ t.initState = .verified ∧ t.debState = s.debState ∧ t.lastTag = s.lastTag ∧
      t.given = s.given ∧ t.requests = s.requests ∧ t.mem = s.mem ∧
      t.trace = s.trace ++ [.read (regAddr s.params .gpio) .w8 (some ((Memory.get s.mem (regAddr s.params .gpio).toNat).setWidth 32)),
        .read (regAddr s.params .pclk) .w8 (some (s.params.pclkDiv.setWidth 32)), .read (regAddr s.params .cmdWrite) .w32 (some (BitVec.ofNat 32 w))]

/-- R340's forced path, the spec's decision D18. -/
def Obligations.AnInconclusiveProbeRunsTheForcedPath : Prop :=
  ∀ (s s1 s2 s3 : State), s1 = afterRead (regAddr s.params .gpio) .w8 s → s2 = afterRead (regAddr s.params .pclk) .w8 s1 →
    s3 = afterRead (regAddr s.params .cmdWrite) .w32 s2 →
    let likeForcedAt : State → Prop := fun u => ∃ (t : State) (r : Result), exec .initForced u = .next t ∧
      t.response = some ⟨r, .none⟩ ∧ exec .initProbe s = .next { t with response := some ⟨r, .path .forced⟩ }
    let gpioShows : Prop := (envAt s 0).ok = true ∧
      Memory.get (memNext s) (regAddr s.params .gpio).toNat &&& s.params.gpioDispMask = s.params.gpioDispMask
    let pclkShows : Prop := (envAt s1 0).ok = true ∧ Memory.get (memNext s1) (regAddr s.params .pclk).toNat = s.params.pclkDiv
    let pointerFits : Prop := (envAt s2 0).ok = true ∧ (Memory.value (memNext s2) (regAddr s.params .cmdWrite).toNat 4).toNat < 4096 ∧
      (Memory.value (memNext s2) (regAddr s.params .cmdWrite).toNat 4).toNat % 4 = 0
    (¬ gpioShows → likeForcedAt s1) ∧ (gpioShows → ¬ pclkShows → likeForcedAt s2) ∧
      (gpioShows → pclkShows → ¬ pointerFits → likeForcedAt s3)

/-- R371, R372, with the split of R374. afterRead is the state after one read. -/
def Obligations.TouchSamplesFollowTheSentinels : Prop :=
  ∀ s : State,
    exec .getTouchRawXy s = .next (respond .ok
      (if (envAt s 0).ok = true ∧ Memory.value (memNext s) (regAddr s.params .touchRawXy).toNat 4 ≠ 0xFFFFFFFF then
        .sample true ((Memory.value (memNext s) (regAddr s.params .touchRawXy).toNat 4).extractLsb' 16 16)
          ((Memory.value (memNext s) (regAddr s.params .touchRawXy).toNat 4).extractLsb' 0 16)
      else .sample false 0 0) (afterRead (regAddr s.params .touchRawXy) .w32 s)) ∧
    exec .getTouchScreenXy s = .next (respond .ok
      (if (envAt s 0).ok = true ∧ Memory.value (memNext s) (regAddr s.params .touchScreenXy).toNat 4 ≠ 0x80008000 then
        .sample true ((Memory.value (memNext s) (regAddr s.params .touchScreenXy).toNat 4).extractLsb' 16 16)
          ((Memory.value (memNext s) (regAddr s.params .touchScreenXy).toNat 4).extractLsb' 0 16)
      else .sample false 0 0) (afterRead (regAddr s.params .touchScreenXy) .w32 s))

/-- R375, an inference of the spec. -/
def Obligations.AValidTouchSampleLosesNothing : Prop :=
  ∀ s : State, (envAt s 0).ok = true →
    (Memory.value (memNext s) (regAddr s.params .touchRawXy).toNat 4 ≠ 0xFFFFFFFF →
      ∃ t x y, exec .getTouchRawXy s = .next t ∧ t.response = some ⟨.ok, .sample true x y⟩ ∧
        x.toNat * 2 ^ 16 + y.toNat = (Memory.value (memNext s) (regAddr s.params .touchRawXy).toNat 4).toNat) ∧
    (Memory.value (memNext s) (regAddr s.params .touchScreenXy).toNat 4 ≠ 0x80008000 →
      ∃ t x y, exec .getTouchScreenXy s = .next t ∧ t.response = some ⟨.ok, .sample true x y⟩ ∧
        x.toNat * 2 ^ 16 + y.toNat = (Memory.value (memNext s) (regAddr s.params .touchScreenXy).toNat 4).toNat)

/-- R373. afterRead is the state after one read. -/
def Obligations.TouchTagIsTheByteReadOrNone : Prop :=
  ∀ s : State, exec .getTouchTag s = .next (respond .ok
    (.tag (if (envAt s 0).ok then Memory.get (memNext s) (regAddr s.params .touchTag).toNat else 0)) (afterRead (regAddr s.params .touchTag) .w8 s))

/-- R376 on success, the spec's decision D28. -/
def Obligations.TransformReadAnswersTheSixCoefficients : Prop :=
  ∀ s : State, OkFor 6 s → ∃ (t : State) (c0 c1 c2 c3 c4 c5 : Word), exec .getTouchTransform s = .next t ∧
    t.response = some ⟨.ok, .coeff [c0, c1, c2, c3, c4, c5]⟩ ∧ SameRegisters s t ∧ t.requests = s.requests ∧
    t.trace = s.trace ++ [.read (regAddr s.params .touchTransformA) .w32 (some c0), .read (regAddr s.params .touchTransformB) .w32 (some c1), .read (regAddr s.params .touchTransformC) .w32 (some c2),
      .read (regAddr s.params .touchTransformD) .w32 (some c3), .read (regAddr s.params .touchTransformE) .w32 (some c4), .read (regAddr s.params .touchTransformF) .w32 (some c5)] ∧
    (QuietFor 6 s → t.mem = s.mem ∧ c0 = Memory.value s.mem (regAddr s.params .touchTransformA).toNat 4 ∧ c1 = Memory.value s.mem (regAddr s.params .touchTransformB).toNat 4 ∧
      c2 = Memory.value s.mem (regAddr s.params .touchTransformC).toNat 4 ∧ c3 = Memory.value s.mem (regAddr s.params .touchTransformD).toNat 4 ∧
      c4 = Memory.value s.mem (regAddr s.params .touchTransformE).toNat 4 ∧ c5 = Memory.value s.mem (regAddr s.params .touchTransformF).toNat 4)

/-- R376's exceptions, the spec's decision D28. -/
def Obligations.TransformReadStopsAtAFailedRead : Prop :=
  ∀ (s : State) (n : Nat), n < 6 → FailsAt n s → ∃ (t : State) (cs : List Word), exec .getTouchTransform s = .next t ∧
    t.response = some ⟨.fail .transport, .none⟩ ∧ SameRegisters s t ∧ t.requests = s.requests ∧ cs.length = n ∧
    t.trace = s.trace ++ (cs.mapIdx (fun i c => Event.read (regAddr s.params .touchTransformA + BitVec.ofNat 24 (4 * i)) .w32 (some c)) ++
      [.read (regAddr s.params .touchTransformA + BitVec.ofNat 24 (4 * n)) .w32 none])

/-- R377 on success, the spec's decision D28. -/
def Obligations.TransformWriteStoresTheSixCoefficients : Prop :=
  ∀ (c0 c1 c2 c3 c4 c5 : Int) (s : State), OkFor 6 s →
    ∃ t, exec (.setTouchTransform c0 c1 c2 c3 c4 c5) s = .next t ∧ t.response = some ⟨.ok, .none⟩ ∧
      SameRegisters s t ∧ t.requests = s.requests ∧
      t.trace = s.trace ++ [wrote (regAddr s.params .touchTransformA) .w32 (mask 32 c0), wrote (regAddr s.params .touchTransformB) .w32 (mask 32 c1),
        wrote (regAddr s.params .touchTransformC) .w32 (mask 32 c2), wrote (regAddr s.params .touchTransformD) .w32 (mask 32 c3), wrote (regAddr s.params .touchTransformE) .w32 (mask 32 c4),
        wrote (regAddr s.params .touchTransformF) .w32 (mask 32 c5)] ∧
      (RegMapFits s.params → QuietFor 6 s →
        Memory.value t.mem (regAddr s.params .touchTransformA).toNat 4 = BitVec.ofNat 32 (mask 32 c0) ∧
        Memory.value t.mem (regAddr s.params .touchTransformB).toNat 4 = BitVec.ofNat 32 (mask 32 c1) ∧
        Memory.value t.mem (regAddr s.params .touchTransformC).toNat 4 = BitVec.ofNat 32 (mask 32 c2) ∧
        Memory.value t.mem (regAddr s.params .touchTransformD).toNat 4 = BitVec.ofNat 32 (mask 32 c3) ∧
        Memory.value t.mem (regAddr s.params .touchTransformE).toNat 4 = BitVec.ofNat 32 (mask 32 c4) ∧
        Memory.value t.mem (regAddr s.params .touchTransformF).toNat 4 = BitVec.ofNat 32 (mask 32 c5) ∧
        ∀ a, (a < (regAddr s.params .touchTransformA).toNat ∨
          (regAddr s.params .touchTransformF).toNat + 4 ≤ a) → Memory.get t.mem a = Memory.get s.mem a)

/-- R377's exceptions, the spec's decision D28. -/
def Obligations.TransformWriteStopsAtAFailedWrite : Prop :=
  ∀ (c0 c1 c2 c3 c4 c5 : Int) (s : State) (n : Nat), n < 6 → FailsAt n s →
    ∃ t, exec (.setTouchTransform c0 c1 c2 c3 c4 c5) s = .next t ∧ t.response = some ⟨.fail .transport, .none⟩ ∧
      SameRegisters s t ∧ t.requests = s.requests ∧
      t.trace = s.trace ++
        (([c0, c1, c2, c3, c4, c5].take n).mapIdx (fun i c =>
          wrote (regAddr s.params .touchTransformA + BitVec.ofNat 24 (4 * i)) .w32 (mask 32 c)) ++
        (([c0, c1, c2, c3, c4, c5].drop n).take 1).map (fun c =>
          failing (wrote (regAddr s.params .touchTransformA + BitVec.ofNat 24 (4 * n)) .w32 (mask 32 c))))

/-- R393, every cell (the two of row NoButton and the two of row Discard for a real tag are one clause each), through BUTTON_POLL, which reads the tag itself (R394, the spec's decision D31); that 254 is a real tag is its decision D29. -/
def Obligations.ButtonPollStepsTheDebounceTable : Prop :=
  ∀ (s : State) (t : Byte), t = (if (envAt s 0).ok then Memory.get (memNext s) (regAddr s.params .touchTag).toNat else 0) →
    let ends : DebState → Byte → Prop := fun d e =>
      exec .buttonPoll s = .next (respond .ok (.event e) (setLastTag t (setDebState d (afterRead (regAddr s.params .touchTag) .w8 s))))
    let real : Prop := t ≠ 0 ∧ t ≠ 255
    (s.debState = .noButton → real → ends .debounce 0) ∧
    (s.debState = .noButton → ¬ real → ends .noButton 0) ∧
    (s.debState = .debounce → real → t = s.lastTag → ends .detected t) ∧
    (s.debState = .debounce → real → t ≠ s.lastTag → ends .debounce 0) ∧
    (s.debState = .debounce → ¬ real → ends .noButton 0) ∧
    (s.debState = .detected → real → t = s.lastTag → ends .detected 0) ∧
    (s.debState = .detected → real → t ≠ s.lastTag → ends .debounce 254) ∧
    (s.debState = .detected → ¬ real → ends .noButton 254) ∧
    (s.debState = .discard → real → ends .discard 0) ∧
    (s.debState = .discard → ¬ real → ends .noButton 0)

/-- R396; that NoButton stays is the spec's decision D32. -/
def Obligations.DiscardForcesDiscardFromAnyOtherState : Prop :=
  ∀ s : State, exec .discardActiveButton s = .next
    { s with response := some ⟨.ok, .none⟩, debState := if s.debState = .noButton then .noButton else .discard }

/-- R395 (a), an inference of the spec from R393 and R394. isPress leaves out a press of a chip-returned 254, whose event is that of a release (R392, the spec's decisions D29 and D30). -/
def Obligations.APressNeedsTheSameTagOnTwoPolls : Prop :=
  ∀ (s t : State) (ps : List Bool) (k : Nat), s.debState = .noButton → (debStates s ps)[k]? = some t →
    isPress (eventOf t) = true →
      ∃ (j : Nat) (u : State), k = j + 1 ∧ (debStates s ps)[j]? = some u ∧ ps[j]? = some true ∧ ps[k]? = some true ∧
        t.lastTag = eventOf t ∧ u.lastTag = eventOf t

/-- R395 (e), an inference of the spec from R393, R394 and R396. isPress leaves out a press of a chip-returned 254, whose event is that of a release (R392, the spec's decisions D29 and D30). -/
def Obligations.BetweenTwoPressesThereIsAReleaseOrADiscard : Prop :=
  ∀ (s t u : State) (ps : List Bool) (i j : Nat), i < j → (debStates s ps)[i]? = some t →
    (debStates s ps)[j]? = some u → isPress (eventOf t) = true → isPress (eventOf u) = true →
      ∃ (k : Nat) (v : State), i < k ∧ k < j ∧ (debStates s ps)[k]? = some v ∧
        (eventOf v = 254 ∨ ps[k]? = some false)

/-- R66 with its default, the spec's decision D8; the transform registers' spacing is R376's and R377's, and that a configured map keeps it is the model's (log 8). -/
def Obligations.TheDefaultRegisterMapIsAsListed : Prop :=
  State.reset.params.regmap = defaultRegMap ∧
    registers.map (regAddr State.reset.params) =
      [0x102400, 0x102428, 0x10242C, 0x102430, 0x102434, 0x102438, 0x10243C, 0x102440, 0x102444, 0x102448, 0x10244C,
       0x102450, 0x102460, 0x102464, 0x102468, 0x10246C, 0x102480, 0x10248C, 0x102490, 0x1024C0, 0x1024C4, 0x1024E4,
       0x1024E8, 0x102508, 0x102510, 0x102518, 0x10251C, 0x102520, 0x102524, 0x102528, 0x10252C, 0x102530] ∧
    RegMapFits State.reset.params ∧
    ∀ p : Params, [Reg.touchTransformA, .touchTransformB, .touchTransformC, .touchTransformD, .touchTransformE,
        .touchTransformF].map (regAddr p) =
      (List.range 6).map fun i => regAddr p .touchTransformA + BitVec.ofNat 24 (4 * i)

end
end

