-- ==== Sys2Proof/Laws/Memory.lean ====
section
/-! SUPPORT. The laws of the chip's space: what a byte reads after each operation, and that every operation keeps the
canonical form. The read laws hold of every list, canonical or not. -/

namespace Sys2Proof.Laws

open Sys2Proof.Machine

/-! ### One byte -/

theorem get_erase_same (m : Memory) (a : Nat) : Memory.get (Memory.erase m a) a = Memory.unlisted := by
  induction m with
  | nil => rfl
  | cons c m ih =>
    obtain ⟨k, b⟩ := c
    simp only [Memory.erase]
    split
    · exact ih
    · simp [Memory.get, *]

theorem get_erase_other (m : Memory) {a x : Nat} (h : x ≠ a) :
    Memory.get (Memory.erase m a) x = Memory.get m x := by
  induction m with
  | nil => rfl
  | cons c m ih =>
    obtain ⟨k, b⟩ := c
    simp only [Memory.erase]
    split
    · rename_i hk; subst hk; simp [Memory.get, Ne.symm h, ih]
    · simp [Memory.get, ih]

theorem get_insert_same (m : Memory) (a : Nat) (b : Byte) (h : ∀ c ∈ m, c.1 ≠ a) :
    Memory.get (Memory.insert m a b) a = b := by
  induction m with
  | nil => simp [Memory.insert, Memory.get]
  | cons c m ih =>
    obtain ⟨k, v⟩ := c
    have hk : k ≠ a := h (k, v) (by simp)
    simp only [Memory.insert]
    split
    · simp [Memory.get]
    · simp [Memory.get, hk, ih fun c hc => h c (by simp [hc])]

theorem get_insert_other (m : Memory) {a x : Nat} (b : Byte) (h : x ≠ a) :
    Memory.get (Memory.insert m a b) x = Memory.get m x := by
  induction m with
  | nil => simp [Memory.insert, Memory.get, Ne.symm h]
  | cons c m ih =>
    obtain ⟨k, v⟩ := c
    simp only [Memory.insert]
    split
    · simp [Memory.get, Ne.symm h]
    · simp [Memory.get, ih]

theorem erase_lacks (m : Memory) (a : Nat) : ∀ c ∈ Memory.erase m a, c.1 ≠ a := by
  induction m with
  | nil => simp [Memory.erase]
  | cons c m ih =>
    obtain ⟨k, v⟩ := c
    simp only [Memory.erase]
    split
    · exact ih
    · rename_i hk
      intro d hd
      rcases List.mem_cons.mp hd with rfl | hd
      · exact hk
      · exact ih d hd

/-- A read after a write to the same address gives the byte written. -/
@[simp] theorem get_set_same (m : Memory) (a : Nat) (b : Byte) : Memory.get (Memory.set m a b) a = b := by
  unfold Memory.set
  split
  · rename_i h; rw [get_erase_same, h]
  · exact get_insert_same _ _ _ (erase_lacks m a)

/-- A write leaves every other address alone. -/
theorem get_set_other (m : Memory) {a x : Nat} (b : Byte) (h : x ≠ a) :
    Memory.get (Memory.set m a b) x = Memory.get m x := by
  unfold Memory.set
  split
  · exact get_erase_other m h
  · rw [get_insert_other _ _ h, get_erase_other m h]

/-! ### Bytes at consecutive addresses -/

/-- A store leaves every address outside its bytes alone, where the bytes lie inside the address space. -/
theorem get_store_outside (m : Memory) (a : Nat) (bs : List Byte) {x : Nat} (hfit : a + bs.length ≤ addressSpace)
    (h : x < a ∨ a + bs.length ≤ x) : Memory.get (Memory.store m a bs) x = Memory.get m x := by
  induction bs generalizing m a with
  | nil => rfl
  | cons b bs ih =>
    simp only [List.length_cons] at hfit h
    have ha : a % addressSpace = a := Nat.mod_eq_of_lt (by omega)
    simp only [Memory.store]
    rw [ih _ _ (by omega) (by omega), get_set_other _ _ (by omega)]

/-- A store puts byte `i` at address `a + i`, where the bytes lie inside the address space. -/
theorem get_store_inside (m : Memory) (a : Nat) (bs : List Byte) (i : Nat) (hi : i < bs.length)
    (hfit : a + bs.length ≤ addressSpace) : Memory.get (Memory.store m a bs) (a + i) = bs[i] := by
  induction bs generalizing m a i with
  | nil => simp at hi
  | cons b bs ih =>
    simp only [List.length_cons] at hfit hi
    have ha : a % addressSpace = a := Nat.mod_eq_of_lt (by omega)
    simp only [Memory.store]
    cases i with
    | zero => rw [get_store_outside _ _ _ (by omega) (by omega), ha]; simp
    | succ i =>
      have := ih (Memory.set m (a % addressSpace) b) (a + 1) i (by omega) (by omega)
      simpa [Nat.add_assoc, Nat.add_comm 1 i] using this

/-- A load of bytes that agree byte by byte is the same list. -/
theorem load_congr (m m' : Memory) (a n : Nat) (hfit : a + n ≤ addressSpace)
    (h : ∀ i, i < n → Memory.get m (a + i) = Memory.get m' (a + i)) : Memory.load m a n = Memory.load m' a n := by
  induction n generalizing a with
  | zero => rfl
  | succ n ih =>
    have ha : a % addressSpace = a := Nat.mod_eq_of_lt (by omega)
    simp only [Memory.load, ha]
    rw [show Memory.get m a = Memory.get m' a from h 0 (by omega)]
    rw [ih (a + 1) (by omega) fun i hi => by simpa [Nat.add_assoc, Nat.add_comm 1 i] using h (i + 1) (by omega)]

/-- A load of what was just stored gives the bytes stored. -/
theorem load_store_same (m : Memory) (a : Nat) (bs : List Byte) (hfit : a + bs.length ≤ addressSpace) :
    Memory.load (Memory.store m a bs) a bs.length = bs := by
  induction bs generalizing m a with
  | nil => rfl
  | cons b bs ih =>
    simp only [List.length_cons] at hfit
    have ha : a % addressSpace = a := Nat.mod_eq_of_lt (by omega)
    simp only [List.length_cons, Memory.load, Memory.store]
    rw [ih _ _ (by omega), ha, get_store_outside _ _ _ (by omega) (by omega), get_set_same]

@[simp] theorem leBytes_length (n : Nat) (w : Word) : (leBytes n w).length = n := by
  induction n generalizing w with
  | zero => rfl
  | succ n ih => simp [leBytes, ih]

/-- Byte `k` of a word, from bit `8k` up (R61). -/
theorem leBytes_getElem (n k : Nat) (w : Word) (h : k < n) :
    (leBytes n w)[k]'(by simpa using h) = BitVec.ofNat 8 (w.toNat / 2 ^ (8 * k)) := by
  induction n generalizing k w with
  | zero => omega
  | succ n ih =>
    cases k with
    | zero => simp only [leBytes, List.getElem_cons_zero]; apply BitVec.eq_of_toNat_eq; simp
    | succ k =>
      simp only [leBytes, List.getElem_cons_succ]
      rw [ih k _ (by omega), BitVec.toNat_ushiftRight, Nat.shiftRight_eq_div_pow, Nat.div_div_eq_div_mul, ← Nat.pow_add,
        show 8 * (k + 1) = 8 + 8 * k by omega]

/-- The bytes of a word spell its low `8n` bits. -/
theorem ofLeBytes_leBytes (n : Nat) (w : Word) : ofLeBytes (leBytes n w) = w.toNat % 2 ^ (8 * n) := by
  induction n generalizing w with
  | zero => simp [leBytes, ofLeBytes, Nat.mod_one]
  | succ n ih =>
    simp only [leBytes, ofLeBytes, ih, BitVec.toNat_setWidth, BitVec.toNat_ushiftRight, Nat.shiftRight_eq_div_pow]
    rw [show 8 * (n + 1) = 8 + 8 * n by omega, Nat.pow_add, Nat.mod_mul]

/-- A value read where a value was just written, at the same width, is that value's low bits. -/
theorem value_store_same (m : Memory) (a n : Nat) (w : Word) (hfit : a + n ≤ addressSpace) :
    Memory.value (Memory.store m a (leBytes n w)) a n = BitVec.ofNat 32 (w.toNat % 2 ^ (8 * n)) := by
  have h := load_store_same m a (leBytes n w) (by simpa using hfit)
  rw [leBytes_length] at h
  rw [Memory.value, h, ofLeBytes_leBytes]

/-! ### The canonical form -/

theorem wfFrom_mono {m : Memory} {lo lo' : Nat} (h : Memory.wfFrom lo m = true) (hl : lo' ≤ lo) :
    Memory.wfFrom lo' m = true := by
  cases m with
  | nil => rfl
  | cons c m =>
    obtain ⟨k, b⟩ := c
    simp only [Memory.wfFrom, Bool.and_eq_true, decide_eq_true_eq] at h ⊢
    exact ⟨⟨⟨by omega, h.1.1.2⟩, h.1.2⟩, h.2⟩

theorem wfFrom_erase {m : Memory} {lo : Nat} (a : Nat) (h : Memory.wfFrom lo m = true) :
    Memory.wfFrom lo (Memory.erase m a) = true := by
  induction m generalizing lo with
  | nil => rfl
  | cons c m ih =>
    obtain ⟨k, b⟩ := c
    simp only [Memory.wfFrom, Bool.and_eq_true, decide_eq_true_eq] at h
    simp only [Memory.erase]
    split
    · exact wfFrom_mono (ih h.2) (by omega)
    · simp only [Memory.wfFrom, Bool.and_eq_true, decide_eq_true_eq]
      exact ⟨h.1, ih h.2⟩

theorem wfFrom_insert {m : Memory} {lo a : Nat} {b : Byte} (h : Memory.wfFrom lo m = true) (hlo : lo ≤ a)
    (ha : a < addressSpace) (hb : b ≠ Memory.unlisted) (hm : ∀ c ∈ m, c.1 ≠ a) :
    Memory.wfFrom lo (Memory.insert m a b) = true := by
  induction m generalizing lo with
  | nil => simp [Memory.insert, Memory.wfFrom, hlo, ha, hb]
  | cons c m ih =>
    obtain ⟨k, v⟩ := c
    have hk : k ≠ a := hm (k, v) (by simp)
    simp only [Memory.wfFrom, Bool.and_eq_true, decide_eq_true_eq] at h
    simp only [Memory.insert]
    split
    · simp only [Memory.wfFrom, Bool.and_eq_true, decide_eq_true_eq]
      exact ⟨⟨⟨hlo, ha⟩, hb⟩, ⟨⟨by omega, h.1.1.2⟩, h.1.2⟩, h.2⟩
    · simp only [Memory.wfFrom, Bool.and_eq_true, decide_eq_true_eq]
      exact ⟨h.1, ih h.2 (by omega) fun c hc => hm c (by simp [hc])⟩

/-- A byte written inside the address space keeps the canonical form. -/
theorem wf_set {m : Memory} {a : Nat} (b : Byte) (h : Memory.wf m = true) (ha : a < addressSpace) :
    Memory.wf (Memory.set m a b) = true := by
  unfold Memory.set
  split
  · exact wfFrom_erase a h
  · rename_i hb
    exact wfFrom_insert (wfFrom_erase a h) (Nat.zero_le a) ha hb (erase_lacks m a)

/-- A store keeps the canonical form. -/
theorem wf_store {m : Memory} (a : Nat) (bs : List Byte) (h : Memory.wf m = true) :
    Memory.wf (Memory.store m a bs) = true := by
  induction bs generalizing m a with
  | nil => exact h
  | cons b bs ih => exact ih _ (wf_set b h (Nat.mod_lt _ (by decide)))

/-- What the chip changes keeps the canonical form. -/
theorem wf_applyChip {m : Memory} (cs : List Host.Cell) (h : Memory.wf m = true) :
    Memory.wf (Memory.applyChip m cs) = true := by
  induction cs generalizing m with
  | nil => exact h
  | cons c cs ih =>
    obtain ⟨a, b⟩ := c
    simp only [Memory.applyChip]
    split
    · exact ih (wf_set b h ‹_›)
    · exact ih h

/-- An address the chip does not name keeps its byte. -/
theorem get_applyChip_other (m : Memory) (cs : List Host.Cell) {x : Nat} (h : ∀ c ∈ cs, c.1 ≠ x) :
    Memory.get (Memory.applyChip m cs) x = Memory.get m x := by
  induction cs generalizing m with
  | nil => rfl
  | cons c cs ih =>
    obtain ⟨a, b⟩ := c
    have ha : a ≠ x := h (a, b) (by simp)
    simp only [Memory.applyChip]
    rw [ih _ fun c hc => h c (by simp [hc])]
    split
    · exact get_set_other m b ha.symm
    · rfl

@[simp] theorem applyChip_nil (m : Memory) : Memory.applyChip m [] = m := rfl

end Sys2Proof.Laws
end

