-- ==== Sys2Proof/Laws/Operands.lean ====
section
/-! SUPPORT. The laws of the operand arithmetic: a mask lies in its field, or-ing a field into the free bits of a word is
adding it, the cursor stays a multiple of 4, a FIFO address lies in RAM_CMD. -/

namespace Sys2Proof.Laws

open Sys2Proof.Machine

/-- A masked operand lies in its field (R12). -/
theorem mask_lt (w : Nat) (v : Int) : mask w v < 2 ^ w := by
  have h : (0 : Int) < (2 : Int) ^ w := by positivity
  have h1 := Int.emod_nonneg v h.ne'
  have h2 := Int.emod_lt_of_pos v h
  unfold mask
  have : ((v % (2 : Int) ^ w).toNat : Int) < ((2 ^ w : Nat) : Int) := by
    rw [Int.toNat_of_nonneg h1]; push_cast; exact h2
  exact_mod_cast this

/-- An operand within an unsigned field is its own mask. -/
theorem mask_of_fitsUnsigned {w : Nat} {p : Int} (h : fitsUnsigned w p = true) : (mask w p : Int) = p := by
  simp only [fitsUnsigned, Bool.and_eq_true, decide_eq_true_eq] at h
  unfold mask
  rw [Int.emod_eq_of_lt h.1 h.2, Int.toNat_of_nonneg h.1]

/-- Or-ing a masked operand into bits that are still 0 adds it at its place (R106: no field overlaps another). -/
theorem or_field (q w lo : Nat) (v : Int) :
    (q * 2 ^ (lo + w)) ||| (mask w v <<< lo) = q * 2 ^ (lo + w) + mask w v * 2 ^ lo := by
  rw [Nat.shiftLeft_eq]
  have h : mask w v * 2 ^ lo < 2 ^ (lo + w) := by
    rw [Nat.pow_add, Nat.mul_comm (2 ^ lo)]
    exact Nat.mul_lt_mul_of_pos_right (mask_lt w v) (by positivity)
  rw [Nat.mul_comm q, Nat.two_pow_add_eq_or_of_lt h]

/-- `or_field` where the bits from `lo + w` down are known to be 0. -/
theorem or_field_of_dvd {acc w lo : Nat} (v : Int) (h : 2 ^ (lo + w) ∣ acc) :
    acc ||| (mask w v <<< lo) = acc + mask w v * 2 ^ lo := by
  obtain ⟨q, rfl⟩ := h
  rw [Nat.mul_comm, or_field]

/-- The sum of the fields of a word, each masked and at its place. -/
def fieldSum : List (Nat × Nat × Int) → Nat
  | [] => 0
  | f :: fs => mask f.1 f.2.2 * 2 ^ f.2.1 + fieldSum fs

/-- The fields lie one below the other, the first below bit `top`. -/
def descending : Nat → List (Nat × Nat × Int) → Bool
  | _, [] => true
  | top, f :: fs => decide (f.2.1 + f.1 ≤ top) && descending f.2.1 fs

theorem foldl_or_fields {fs : List (Nat × Nat × Int)} {top acc : Nat} (hd : descending top fs = true)
    (ha : 2 ^ top ∣ acc) :
    fs.foldl (fun acc f => acc ||| (mask f.1 f.2.2 <<< f.2.1)) acc = acc + fieldSum fs := by
  induction fs generalizing top acc with
  | nil => simp [fieldSum]
  | cons f fs ih =>
    simp only [descending, Bool.and_eq_true, decide_eq_true_eq] at hd
    have h1 : 2 ^ (f.2.1 + f.1) ∣ acc := (Nat.pow_dvd_pow 2 hd.1).trans ha
    simp only [List.foldl_cons, fieldSum]
    rw [or_field_of_dvd _ h1, ih hd.2, Nat.add_assoc]
    refine Nat.dvd_add ((Nat.pow_dvd_pow 2 (Nat.le_add_right _ _)).trans h1) (Dvd.intro_left _ rfl)

/-- The packing rule as a sum (R106): the opcode part is a multiple of `2^top`, the fields lie below it, apart from one
another and in descending order. -/
theorem pack_eq_sum {opc top : Nat} {fs : List (Nat × Nat × Int)} (hd : descending top fs = true)
    (ho : 2 ^ top ∣ opc) : pack opc fs = BitVec.ofNat 32 (opc + fieldSum fs) := by
  rw [pack, foldl_or_fields hd ho]

/-- A header word as a sum (R255). -/
theorem hw16_eq_sum (p q : Int) : hw16 p q = BitVec.ofNat 32 (mask 16 p + mask 16 q * 2 ^ 16) := by
  have h := Nat.two_pow_add_eq_or_of_lt (i := 16) (mask_lt 16 p) (mask 16 q)
  simp only [hw16, pack, List.foldl_cons, List.foldl_nil, Nat.zero_or, Nat.shiftLeft_zero]
  rw [Nat.or_comm, Nat.shiftLeft_eq, Nat.mul_comm (mask 16 q), ← h, Nat.add_comm]

/-- A rounded count is a multiple of 4 (R13). -/
theorem roundUp4_mod (n : Nat) : roundUp4 n % 4 = 0 := by unfold roundUp4; omega

/-- Rounding up adds at most 3 (R13). -/
theorem roundUp4_bounds (n : Nat) : n ≤ roundUp4 n ∧ roundUp4 n < n + 4 := by unfold roundUp4; omega

/-- The advanced cursor as a number (R302). -/
theorem advance_toNat (c : BitVec 12) (n : Nat) : (advance c n).toNat = (c.toNat + roundUp4 n) % 4096 := by
  simp only [advance, cmdSize, BitVec.toNat_ofNat]
  omega

/-- The cursor stays a multiple of 4 (R32, R40). -/
theorem advance_aligned {c : BitVec 12} (h : c.toNat % 4 = 0) (n : Nat) : (advance c n).toNat % 4 = 0 := by
  have := roundUp4_mod n
  rw [advance_toNat]
  omega

/-- A FIFO address as a number (R301). -/
theorem fifoAddr_toNat (c : BitVec 12) (i : Nat) : (fifoAddr c i).toNat = 0x108000 + (c.toNat + i) % 4096 := by
  simp only [fifoAddr, cmdBase, cmdSize, BitVec.toNat_ofNat]
  omega

end Sys2Proof.Laws
end

