-- ==== Sys2Proof/Laws/RegMap.lean ====
section
/-! SUPPORT. The register map (R66): what `RegMapFits` gives of two registers, that the default map has it, and that a
register access is then legal (R63). -/

namespace Sys2Proof.Laws

open Sys2Proof.Machine Sys2Proof.Safety

theorem mem_registers (r : Reg) : r ∈ registers := by cases r <;> decide

theorem nodup_registers : registers.Nodup := by decide

/-- Every register lies at a multiple of 4 in the register block. -/
theorem regMapFits_place {p : Params} (h : RegMapFits p) (r : Reg) :
    (regAddr p r).toNat % 4 = 0 ∧ 0x102400 ≤ (regAddr p r).toNat ∧ (regAddr p r).toNat + 4 ≤ 0x108000 :=
  h.1 r (mem_registers r)

/-- Two registers at one address are one register. -/
theorem regMapFits_inj {p : Params} (h : RegMapFits p) {r q : Reg} (e : regAddr p r = regAddr p q) : r = q :=
  List.inj_on_of_nodup_map h.2 (mem_registers r) (mem_registers q) e

/-- The bytes of two registers do not overlap. -/
theorem regMapFits_apart {p : Params} (h : RegMapFits p) {r q : Reg} (hne : r ≠ q) :
    (regAddr p r).toNat + 4 ≤ (regAddr p q).toNat ∨ (regAddr p q).toNat + 4 ≤ (regAddr p r).toNat := by
  have hr := regMapFits_place h r
  have hq := regMapFits_place h q
  have : (regAddr p r).toNat ≠ (regAddr p q).toNat := fun e => hne (regMapFits_inj h (BitVec.eq_of_toNat_eq e))
  omega

/-- The default map of R66 fits, whatever the other parameters. -/
theorem regMapFits_default {p : Params} (h : p.regmap = defaultRegMap) : RegMapFits p := by
  have e : regAddr p = regAddr defaultParams := by
    funext r
    cases r <;> simp only [regAddr, h] <;> rfl
  have d : RegMapFits defaultParams := by unfold RegMapFits; decide
  unfold RegMapFits at d ⊢
  rw [e]
  exact d

theorem isRegister_regAddr (p : Params) (r : Reg) : isRegister p (regAddr p r) = true :=
  List.any_eq_true.mpr ⟨r, mem_registers r, by simp⟩

theorem alignedFor_regAddr {p : Params} (h : RegMapFits p) (r : Reg) (w : Width) :
    alignedFor w (regAddr p r) = true := by
  have := (regMapFits_place h r).1
  cases w <;> simp only [alignedFor, widthBytes, beq_iff_eq] <;> omega

/-- Every access of a register at its REGMAP address is legal (R63, R66). -/
theorem legal_write_reg {p : Params} (h : RegMapFits p) (r : Reg) (w : Width) (v : Word) (ok : Bool) :
    legalEvent p (.write (regAddr p r) w v ok) = true := by
  simp [legalEvent, isRegister_regAddr, alignedFor_regAddr h]

theorem legal_read_reg {p : Params} (h : RegMapFits p) (r : Reg) (w : Width) (v : Option Word) :
    legalEvent p (.read (regAddr p r) w v) = true := by
  simp [legalEvent, isRegister_regAddr, alignedFor_regAddr h]

end Sys2Proof.Laws
end

