-- ==== Sys2Proof/Laws/State.lean ====
section
/-! SUPPORT. What each update leaves of each field of State, one lemma per field per update, all by rfl; and the fields
of the state after each bus transaction. -/

namespace Sys2Proof.Laws

open Sys2Proof.Machine

/-! ### setCursor -/

@[simp] theorem setCursor_cursor (c : BitVec 12) (s : State) : (setCursor c s).cursor = c := rfl
@[simp] theorem setCursor_initialized (c : BitVec 12) (s : State) : (setCursor c s).initialized = s.initialized := rfl
@[simp] theorem setCursor_initState (c : BitVec 12) (s : State) : (setCursor c s).initState = s.initState := rfl
@[simp] theorem setCursor_debState (c : BitVec 12) (s : State) : (setCursor c s).debState = s.debState := rfl
@[simp] theorem setCursor_lastTag (c : BitVec 12) (s : State) : (setCursor c s).lastTag = s.lastTag := rfl
@[simp] theorem setCursor_response (c : BitVec 12) (s : State) : (setCursor c s).response = s.response := rfl
@[simp] theorem setCursor_requests (c : BitVec 12) (s : State) : (setCursor c s).requests = s.requests := rfl
@[simp] theorem setCursor_mem (c : BitVec 12) (s : State) : (setCursor c s).mem = s.mem := rfl
@[simp] theorem setCursor_env (c : BitVec 12) (s : State) : (setCursor c s).env = s.env := rfl
@[simp] theorem setCursor_tick (c : BitVec 12) (s : State) : (setCursor c s).tick = s.tick := rfl
@[simp] theorem setCursor_trace (c : BitVec 12) (s : State) : (setCursor c s).trace = s.trace := rfl
@[simp] theorem setCursor_given (c : BitVec 12) (s : State) : (setCursor c s).given = s.given := rfl
@[simp] theorem setCursor_params (c : BitVec 12) (s : State) : (setCursor c s).params = s.params := rfl

/-! ### setInitState -/

@[simp] theorem setInitState_cursor (i : InitState) (s : State) : (setInitState i s).cursor = s.cursor := rfl
@[simp] theorem setInitState_initialized (i : InitState) (s : State) : (setInitState i s).initialized = s.initialized := rfl
@[simp] theorem setInitState_initState (i : InitState) (s : State) : (setInitState i s).initState = i := rfl
@[simp] theorem setInitState_debState (i : InitState) (s : State) : (setInitState i s).debState = s.debState := rfl
@[simp] theorem setInitState_lastTag (i : InitState) (s : State) : (setInitState i s).lastTag = s.lastTag := rfl
@[simp] theorem setInitState_response (i : InitState) (s : State) : (setInitState i s).response = s.response := rfl
@[simp] theorem setInitState_requests (i : InitState) (s : State) : (setInitState i s).requests = s.requests := rfl
@[simp] theorem setInitState_mem (i : InitState) (s : State) : (setInitState i s).mem = s.mem := rfl
@[simp] theorem setInitState_env (i : InitState) (s : State) : (setInitState i s).env = s.env := rfl
@[simp] theorem setInitState_tick (i : InitState) (s : State) : (setInitState i s).tick = s.tick := rfl
@[simp] theorem setInitState_trace (i : InitState) (s : State) : (setInitState i s).trace = s.trace := rfl
@[simp] theorem setInitState_given (i : InitState) (s : State) : (setInitState i s).given = s.given := rfl
@[simp] theorem setInitState_params (i : InitState) (s : State) : (setInitState i s).params = s.params := rfl

/-! ### setDebState -/

@[simp] theorem setDebState_cursor (d : DebState) (s : State) : (setDebState d s).cursor = s.cursor := rfl
@[simp] theorem setDebState_initialized (d : DebState) (s : State) : (setDebState d s).initialized = s.initialized := rfl
@[simp] theorem setDebState_initState (d : DebState) (s : State) : (setDebState d s).initState = s.initState := rfl
@[simp] theorem setDebState_debState (d : DebState) (s : State) : (setDebState d s).debState = d := rfl
@[simp] theorem setDebState_lastTag (d : DebState) (s : State) : (setDebState d s).lastTag = s.lastTag := rfl
@[simp] theorem setDebState_response (d : DebState) (s : State) : (setDebState d s).response = s.response := rfl
@[simp] theorem setDebState_requests (d : DebState) (s : State) : (setDebState d s).requests = s.requests := rfl
@[simp] theorem setDebState_mem (d : DebState) (s : State) : (setDebState d s).mem = s.mem := rfl
@[simp] theorem setDebState_env (d : DebState) (s : State) : (setDebState d s).env = s.env := rfl
@[simp] theorem setDebState_tick (d : DebState) (s : State) : (setDebState d s).tick = s.tick := rfl
@[simp] theorem setDebState_trace (d : DebState) (s : State) : (setDebState d s).trace = s.trace := rfl
@[simp] theorem setDebState_given (d : DebState) (s : State) : (setDebState d s).given = s.given := rfl
@[simp] theorem setDebState_params (d : DebState) (s : State) : (setDebState d s).params = s.params := rfl

/-! ### setLastTag -/

@[simp] theorem setLastTag_cursor (t : Byte) (s : State) : (setLastTag t s).cursor = s.cursor := rfl
@[simp] theorem setLastTag_initialized (t : Byte) (s : State) : (setLastTag t s).initialized = s.initialized := rfl
@[simp] theorem setLastTag_initState (t : Byte) (s : State) : (setLastTag t s).initState = s.initState := rfl
@[simp] theorem setLastTag_debState (t : Byte) (s : State) : (setLastTag t s).debState = s.debState := rfl
@[simp] theorem setLastTag_lastTag (t : Byte) (s : State) : (setLastTag t s).lastTag = t := rfl
@[simp] theorem setLastTag_response (t : Byte) (s : State) : (setLastTag t s).response = s.response := rfl
@[simp] theorem setLastTag_requests (t : Byte) (s : State) : (setLastTag t s).requests = s.requests := rfl
@[simp] theorem setLastTag_mem (t : Byte) (s : State) : (setLastTag t s).mem = s.mem := rfl
@[simp] theorem setLastTag_env (t : Byte) (s : State) : (setLastTag t s).env = s.env := rfl
@[simp] theorem setLastTag_tick (t : Byte) (s : State) : (setLastTag t s).tick = s.tick := rfl
@[simp] theorem setLastTag_trace (t : Byte) (s : State) : (setLastTag t s).trace = s.trace := rfl
@[simp] theorem setLastTag_given (t : Byte) (s : State) : (setLastTag t s).given = s.given := rfl
@[simp] theorem setLastTag_params (t : Byte) (s : State) : (setLastTag t s).params = s.params := rfl

/-! ### clearInitialized -/

@[simp] theorem clearInitialized_cursor (s : State) : (clearInitialized s).cursor = s.cursor := rfl
@[simp] theorem clearInitialized_initialized (s : State) : (clearInitialized s).initialized = false := rfl
@[simp] theorem clearInitialized_initState (s : State) : (clearInitialized s).initState = s.initState := rfl
@[simp] theorem clearInitialized_debState (s : State) : (clearInitialized s).debState = s.debState := rfl
@[simp] theorem clearInitialized_lastTag (s : State) : (clearInitialized s).lastTag = s.lastTag := rfl
@[simp] theorem clearInitialized_response (s : State) : (clearInitialized s).response = s.response := rfl
@[simp] theorem clearInitialized_requests (s : State) : (clearInitialized s).requests = s.requests := rfl
@[simp] theorem clearInitialized_mem (s : State) : (clearInitialized s).mem = s.mem := rfl
@[simp] theorem clearInitialized_env (s : State) : (clearInitialized s).env = s.env := rfl
@[simp] theorem clearInitialized_tick (s : State) : (clearInitialized s).tick = s.tick := rfl
@[simp] theorem clearInitialized_trace (s : State) : (clearInitialized s).trace = s.trace := rfl
@[simp] theorem clearInitialized_given (s : State) : (clearInitialized s).given = s.given := rfl
@[simp] theorem clearInitialized_params (s : State) : (clearInitialized s).params = s.params := rfl

/-! ### setInitialized -/

@[simp] theorem setInitialized_cursor (s : State) : (setInitialized s).cursor = s.cursor := rfl
@[simp] theorem setInitialized_initialized (s : State) : (setInitialized s).initialized = true := rfl
@[simp] theorem setInitialized_initState (s : State) : (setInitialized s).initState = s.initState := rfl
@[simp] theorem setInitialized_debState (s : State) : (setInitialized s).debState = s.debState := rfl
@[simp] theorem setInitialized_lastTag (s : State) : (setInitialized s).lastTag = s.lastTag := rfl
@[simp] theorem setInitialized_response (s : State) : (setInitialized s).response = s.response := rfl
@[simp] theorem setInitialized_requests (s : State) : (setInitialized s).requests = s.requests := rfl
@[simp] theorem setInitialized_mem (s : State) : (setInitialized s).mem = s.mem := rfl
@[simp] theorem setInitialized_env (s : State) : (setInitialized s).env = s.env := rfl
@[simp] theorem setInitialized_tick (s : State) : (setInitialized s).tick = s.tick := rfl
@[simp] theorem setInitialized_trace (s : State) : (setInitialized s).trace = s.trace := rfl
@[simp] theorem setInitialized_given (s : State) : (setInitialized s).given = s.given := rfl
@[simp] theorem setInitialized_params (s : State) : (setInitialized s).params = s.params := rfl

/-! ### respond -/

@[simp] theorem respond_cursor (r : Result) (o : Output) (s : State) : (respond r o s).cursor = s.cursor := rfl
@[simp] theorem respond_initialized (r : Result) (o : Output) (s : State) : (respond r o s).initialized = s.initialized := rfl
@[simp] theorem respond_initState (r : Result) (o : Output) (s : State) : (respond r o s).initState = s.initState := rfl
@[simp] theorem respond_debState (r : Result) (o : Output) (s : State) : (respond r o s).debState = s.debState := rfl
@[simp] theorem respond_lastTag (r : Result) (o : Output) (s : State) : (respond r o s).lastTag = s.lastTag := rfl
@[simp] theorem respond_response (r : Result) (o : Output) (s : State) : (respond r o s).response = some ⟨r, o⟩ := rfl
@[simp] theorem respond_requests (r : Result) (o : Output) (s : State) : (respond r o s).requests = s.requests := rfl
@[simp] theorem respond_mem (r : Result) (o : Output) (s : State) : (respond r o s).mem = s.mem := rfl
@[simp] theorem respond_env (r : Result) (o : Output) (s : State) : (respond r o s).env = s.env := rfl
@[simp] theorem respond_tick (r : Result) (o : Output) (s : State) : (respond r o s).tick = s.tick := rfl
@[simp] theorem respond_trace (r : Result) (o : Output) (s : State) : (respond r o s).trace = s.trace := rfl
@[simp] theorem respond_given (r : Result) (o : Output) (s : State) : (respond r o s).given = s.given := rfl
@[simp] theorem respond_params (r : Result) (o : Output) (s : State) : (respond r o s).params = s.params := rfl

/-! ### log -/

@[simp] theorem log_cursor (e : Event) (s : State) : (log e s).cursor = s.cursor := rfl
@[simp] theorem log_initialized (e : Event) (s : State) : (log e s).initialized = s.initialized := rfl
@[simp] theorem log_initState (e : Event) (s : State) : (log e s).initState = s.initState := rfl
@[simp] theorem log_debState (e : Event) (s : State) : (log e s).debState = s.debState := rfl
@[simp] theorem log_lastTag (e : Event) (s : State) : (log e s).lastTag = s.lastTag := rfl
@[simp] theorem log_response (e : Event) (s : State) : (log e s).response = s.response := rfl
@[simp] theorem log_requests (e : Event) (s : State) : (log e s).requests = s.requests := rfl
@[simp] theorem log_mem (e : Event) (s : State) : (log e s).mem = s.mem := rfl
@[simp] theorem log_env (e : Event) (s : State) : (log e s).env = s.env := rfl
@[simp] theorem log_tick (e : Event) (s : State) : (log e s).tick = s.tick := rfl
@[simp] theorem log_trace (e : Event) (s : State) : (log e s).trace = s.trace ++ [e] := rfl
@[simp] theorem log_given (e : Event) (s : State) : (log e s).given = s.given := rfl
@[simp] theorem log_params (e : Event) (s : State) : (log e s).params = s.params := rfl

/-! ### poke -/

@[simp] theorem poke_cursor (a : Nat) (bs : List Byte) (s : State) : (poke a bs s).cursor = s.cursor := rfl
@[simp] theorem poke_initialized (a : Nat) (bs : List Byte) (s : State) : (poke a bs s).initialized = s.initialized := rfl
@[simp] theorem poke_initState (a : Nat) (bs : List Byte) (s : State) : (poke a bs s).initState = s.initState := rfl
@[simp] theorem poke_debState (a : Nat) (bs : List Byte) (s : State) : (poke a bs s).debState = s.debState := rfl
@[simp] theorem poke_lastTag (a : Nat) (bs : List Byte) (s : State) : (poke a bs s).lastTag = s.lastTag := rfl
@[simp] theorem poke_response (a : Nat) (bs : List Byte) (s : State) : (poke a bs s).response = s.response := rfl
@[simp] theorem poke_requests (a : Nat) (bs : List Byte) (s : State) : (poke a bs s).requests = s.requests := rfl
@[simp] theorem poke_mem (a : Nat) (bs : List Byte) (s : State) : (poke a bs s).mem = Memory.store s.mem a bs := rfl
@[simp] theorem poke_env (a : Nat) (bs : List Byte) (s : State) : (poke a bs s).env = s.env := rfl
@[simp] theorem poke_tick (a : Nat) (bs : List Byte) (s : State) : (poke a bs s).tick = s.tick := rfl
@[simp] theorem poke_trace (a : Nat) (bs : List Byte) (s : State) : (poke a bs s).trace = s.trace := rfl
@[simp] theorem poke_given (a : Nat) (bs : List Byte) (s : State) : (poke a bs s).given = s.given := rfl
@[simp] theorem poke_params (a : Nat) (bs : List Byte) (s : State) : (poke a bs s).params = s.params := rfl

/-! ### placeRequest -/

@[simp] theorem placeRequest_cursor (r : Request) (s : State) : (placeRequest r s).cursor = s.cursor := rfl
@[simp] theorem placeRequest_initialized (r : Request) (s : State) : (placeRequest r s).initialized = s.initialized := rfl
@[simp] theorem placeRequest_initState (r : Request) (s : State) : (placeRequest r s).initState = s.initState := rfl
@[simp] theorem placeRequest_debState (r : Request) (s : State) : (placeRequest r s).debState = s.debState := rfl
@[simp] theorem placeRequest_lastTag (r : Request) (s : State) : (placeRequest r s).lastTag = s.lastTag := rfl
@[simp] theorem placeRequest_response (r : Request) (s : State) : (placeRequest r s).response = s.response := rfl
@[simp] theorem placeRequest_requests (r : Request) (s : State) : (placeRequest r s).requests = r :: s.requests := rfl
@[simp] theorem placeRequest_mem (r : Request) (s : State) : (placeRequest r s).mem = s.mem := rfl
@[simp] theorem placeRequest_env (r : Request) (s : State) : (placeRequest r s).env = s.env := rfl
@[simp] theorem placeRequest_tick (r : Request) (s : State) : (placeRequest r s).tick = s.tick := rfl
@[simp] theorem placeRequest_trace (r : Request) (s : State) : (placeRequest r s).trace = s.trace := rfl
@[simp] theorem placeRequest_given (r : Request) (s : State) : (placeRequest r s).given = s.given := rfl
@[simp] theorem placeRequest_params (r : Request) (s : State) : (placeRequest r s).params = s.params := rfl

/-! ### envStep -/

@[simp] theorem envStep_cursor (s : State) : (envStep s).cursor = s.cursor := rfl
@[simp] theorem envStep_initialized (s : State) : (envStep s).initialized = s.initialized := rfl
@[simp] theorem envStep_initState (s : State) : (envStep s).initState = s.initState := rfl
@[simp] theorem envStep_debState (s : State) : (envStep s).debState = s.debState := rfl
@[simp] theorem envStep_lastTag (s : State) : (envStep s).lastTag = s.lastTag := rfl
@[simp] theorem envStep_response (s : State) : (envStep s).response = s.response := rfl
@[simp] theorem envStep_requests (s : State) : (envStep s).requests = s.requests := rfl
@[simp] theorem envStep_mem (s : State) : (envStep s).mem = Memory.applyChip s.mem (envNext s).chip := rfl
@[simp] theorem envStep_env (s : State) : (envStep s).env = s.env.tail := rfl
@[simp] theorem envStep_tick (s : State) : (envStep s).tick = s.tick + 1 := rfl
@[simp] theorem envStep_trace (s : State) : (envStep s).trace = s.trace := rfl
@[simp] theorem envStep_given (s : State) : (envStep s).given = s.given := rfl
@[simp] theorem envStep_params (s : State) : (envStep s).params = s.params := rfl

/-! ### busWrite -/

@[simp] theorem busWrite_cursor (a : Addr) (w : Width) (v : Word) (s : State) : (busWrite a w v s).cursor = s.cursor := by unfold busWrite; split <;> rfl
@[simp] theorem busWrite_initialized (a : Addr) (w : Width) (v : Word) (s : State) : (busWrite a w v s).initialized = s.initialized := by unfold busWrite; split <;> rfl
@[simp] theorem busWrite_initState (a : Addr) (w : Width) (v : Word) (s : State) : (busWrite a w v s).initState = s.initState := by unfold busWrite; split <;> rfl
@[simp] theorem busWrite_debState (a : Addr) (w : Width) (v : Word) (s : State) : (busWrite a w v s).debState = s.debState := by unfold busWrite; split <;> rfl
@[simp] theorem busWrite_lastTag (a : Addr) (w : Width) (v : Word) (s : State) : (busWrite a w v s).lastTag = s.lastTag := by unfold busWrite; split <;> rfl
@[simp] theorem busWrite_response (a : Addr) (w : Width) (v : Word) (s : State) : (busWrite a w v s).response = s.response := by unfold busWrite; split <;> rfl
@[simp] theorem busWrite_requests (a : Addr) (w : Width) (v : Word) (s : State) : (busWrite a w v s).requests = s.requests := by unfold busWrite; split <;> rfl
@[simp] theorem busWrite_mem (a : Addr) (w : Width) (v : Word) (s : State) : (busWrite a w v s).mem = if busOk s then Memory.store (envStep s).mem a.toNat (leBytes (widthBytes w) v) else (envStep s).mem := by unfold busWrite; split <;> rfl
@[simp] theorem busWrite_env (a : Addr) (w : Width) (v : Word) (s : State) : (busWrite a w v s).env = s.env.tail := by unfold busWrite; split <;> rfl
@[simp] theorem busWrite_tick (a : Addr) (w : Width) (v : Word) (s : State) : (busWrite a w v s).tick = s.tick + 1 := by unfold busWrite; split <;> rfl
@[simp] theorem busWrite_trace (a : Addr) (w : Width) (v : Word) (s : State) : (busWrite a w v s).trace = s.trace ++ [.write a w (truncTo w v) (busOk s)] := by unfold busWrite; split <;> rfl
@[simp] theorem busWrite_given (a : Addr) (w : Width) (v : Word) (s : State) : (busWrite a w v s).given = s.given := by unfold busWrite; split <;> rfl
@[simp] theorem busWrite_params (a : Addr) (w : Width) (v : Word) (s : State) : (busWrite a w v s).params = s.params := by simp [State.params]

/-! ### afterRead -/

@[simp] theorem afterRead_cursor (a : Addr) (w : Width) (s : State) : (afterRead a w s).cursor = s.cursor := rfl
@[simp] theorem afterRead_initialized (a : Addr) (w : Width) (s : State) : (afterRead a w s).initialized = s.initialized := rfl
@[simp] theorem afterRead_initState (a : Addr) (w : Width) (s : State) : (afterRead a w s).initState = s.initState := rfl
@[simp] theorem afterRead_debState (a : Addr) (w : Width) (s : State) : (afterRead a w s).debState = s.debState := rfl
@[simp] theorem afterRead_lastTag (a : Addr) (w : Width) (s : State) : (afterRead a w s).lastTag = s.lastTag := rfl
@[simp] theorem afterRead_response (a : Addr) (w : Width) (s : State) : (afterRead a w s).response = s.response := rfl
@[simp] theorem afterRead_requests (a : Addr) (w : Width) (s : State) : (afterRead a w s).requests = s.requests := rfl
@[simp] theorem afterRead_mem (a : Addr) (w : Width) (s : State) : (afterRead a w s).mem = (envStep s).mem := rfl
@[simp] theorem afterRead_env (a : Addr) (w : Width) (s : State) : (afterRead a w s).env = s.env.tail := rfl
@[simp] theorem afterRead_tick (a : Addr) (w : Width) (s : State) : (afterRead a w s).tick = s.tick + 1 := rfl
@[simp] theorem afterRead_trace (a : Addr) (w : Width) (s : State) : (afterRead a w s).trace = s.trace ++ [.read a w (busRead a w s)] := rfl
@[simp] theorem afterRead_given (a : Addr) (w : Width) (s : State) : (afterRead a w s).given = s.given := rfl
@[simp] theorem afterRead_params (a : Addr) (w : Width) (s : State) : (afterRead a w s).params = s.params := by simp [State.params]

/-! ### hostCommand -/

@[simp] theorem hostCommand_cursor (c : Byte) (s : State) : (hostCommand c s).cursor = s.cursor := rfl
@[simp] theorem hostCommand_initialized (c : Byte) (s : State) : (hostCommand c s).initialized = s.initialized := rfl
@[simp] theorem hostCommand_initState (c : Byte) (s : State) : (hostCommand c s).initState = s.initState := rfl
@[simp] theorem hostCommand_debState (c : Byte) (s : State) : (hostCommand c s).debState = s.debState := rfl
@[simp] theorem hostCommand_lastTag (c : Byte) (s : State) : (hostCommand c s).lastTag = s.lastTag := rfl
@[simp] theorem hostCommand_response (c : Byte) (s : State) : (hostCommand c s).response = s.response := rfl
@[simp] theorem hostCommand_requests (c : Byte) (s : State) : (hostCommand c s).requests = s.requests := rfl
@[simp] theorem hostCommand_mem (c : Byte) (s : State) : (hostCommand c s).mem = (envStep s).mem := rfl
@[simp] theorem hostCommand_env (c : Byte) (s : State) : (hostCommand c s).env = s.env.tail := rfl
@[simp] theorem hostCommand_tick (c : Byte) (s : State) : (hostCommand c s).tick = s.tick + 1 := rfl
@[simp] theorem hostCommand_trace (c : Byte) (s : State) : (hostCommand c s).trace = s.trace ++ [.hostCommand c (busOk s)] := rfl
@[simp] theorem hostCommand_given (c : Byte) (s : State) : (hostCommand c s).given = s.given := rfl
@[simp] theorem hostCommand_params (c : Byte) (s : State) : (hostCommand c s).params = s.params := by simp [State.params]

/-! ### sleep -/

@[simp] theorem sleep_cursor (d : Nat) (s : State) : (sleep d s).cursor = s.cursor := rfl
@[simp] theorem sleep_initialized (d : Nat) (s : State) : (sleep d s).initialized = s.initialized := rfl
@[simp] theorem sleep_initState (d : Nat) (s : State) : (sleep d s).initState = s.initState := rfl
@[simp] theorem sleep_debState (d : Nat) (s : State) : (sleep d s).debState = s.debState := rfl
@[simp] theorem sleep_lastTag (d : Nat) (s : State) : (sleep d s).lastTag = s.lastTag := rfl
@[simp] theorem sleep_response (d : Nat) (s : State) : (sleep d s).response = s.response := rfl
@[simp] theorem sleep_requests (d : Nat) (s : State) : (sleep d s).requests = s.requests := rfl
@[simp] theorem sleep_mem (d : Nat) (s : State) : (sleep d s).mem = s.mem := rfl
@[simp] theorem sleep_env (d : Nat) (s : State) : (sleep d s).env = s.env := rfl
@[simp] theorem sleep_tick (d : Nat) (s : State) : (sleep d s).tick = s.tick := rfl
@[simp] theorem sleep_trace (d : Nat) (s : State) : (sleep d s).trace = s.trace ++ [.sleep d] := rfl
@[simp] theorem sleep_given (d : Nat) (s : State) : (sleep d s).given = s.given := rfl
@[simp] theorem sleep_params (d : Nat) (s : State) : (sleep d s).params = s.params := by simp [State.params]

end Sys2Proof.Laws
end

