-- ==== Sys2Proof/Laws/Bus.lean ====
section
/-! SUPPORT. What the bus operations can do: which action each transaction takes from the environment ahead, and that a
run of transactions changes the ports, the chip's space and the trace and no register. -/

namespace Sys2Proof.Laws

open Sys2Proof.Machine Sys2Proof.Safety

/-! ### The environment ahead -/

theorem envNext_eq (s : State) : envNext s = envAt s 0 := by
  unfold envNext envAt
  cases s.env <;> simp

theorem busOk_eq (s : State) : busOk s = (envAt s 0).ok := by rw [busOk, envNext_eq]

/-- The environment ahead is a function of the given actions and the transaction number. -/
theorem envAt_congr {s t : State} (he : t.env = s.env) (ht : t.tick = s.tick) (k : Nat) : envAt t k = envAt s k := by
  unfold envAt; rw [he, ht]

theorem envAt_shift {s t : State} (he : t.env = s.env.tail) (ht : t.tick = s.tick + 1) (k : Nat) :
    envAt t k = envAt s (k + 1) := by
  unfold envAt
  rw [he, ht, show s.tick + 1 + k = s.tick + (k + 1) by omega]
  cases s.env <;> simp

@[simp] theorem envAt_envStep (s : State) (k : Nat) : envAt (envStep s) k = envAt s (k + 1) := envAt_shift rfl rfl k

@[simp] theorem envAt_busWrite (a : Addr) (w : Width) (v : Word) (s : State) (k : Nat) :
    envAt (busWrite a w v s) k = envAt s (k + 1) := envAt_shift (by simp) (by simp) k

@[simp] theorem envAt_afterRead (a : Addr) (w : Width) (s : State) (k : Nat) :
    envAt (afterRead a w s) k = envAt s (k + 1) := envAt_shift (by simp) (by simp) k

@[simp] theorem envAt_hostCommand (c : Byte) (s : State) (k : Nat) :
    envAt (hostCommand c s) k = envAt s (k + 1) := envAt_shift (by simp) (by simp) k

@[simp] theorem envAt_sleep (d : Nat) (s : State) (k : Nat) : envAt (sleep d s) k = envAt s k := rfl
@[simp] theorem envAt_setCursor (c : BitVec 12) (s : State) (k : Nat) : envAt (setCursor c s) k = envAt s k := rfl
@[simp] theorem envAt_setInitState (i : InitState) (s : State) (k : Nat) : envAt (setInitState i s) k = envAt s k := rfl
@[simp] theorem envAt_clearInitialized (s : State) (k : Nat) : envAt (clearInitialized s) k = envAt s k := rfl
@[simp] theorem envAt_setInitialized (s : State) (k : Nat) : envAt (setInitialized s) k = envAt s k := rfl
@[simp] theorem envAt_respond (r : Result) (o : Output) (s : State) (k : Nat) : envAt (respond r o s) k = envAt s k := rfl

theorem okFor_of_shift {s t : State} {n : Nat} (h : ∀ k, envAt t k = envAt s (k + 1)) (hs : OkFor (n + 1) s) :
    OkFor n t := fun k hk => by rw [h]; exact hs (k + 1) (by omega)

theorem quietFor_of_shift {s t : State} {n : Nat} (h : ∀ k, envAt t k = envAt s (k + 1)) (hs : QuietFor (n + 1) s) :
    QuietFor n t := fun k hk => by rw [h]; exact hs (k + 1) (by omega)

theorem failsAt_of_shift {s t : State} {n : Nat} (h : ∀ k, envAt t k = envAt s (k + 1)) (hs : FailsAt (n + 1) s) :
    FailsAt n t := ⟨okFor_of_shift h hs.1, by rw [h]; exact hs.2⟩

theorem okFor_mono {s : State} {m n : Nat} (h : OkFor n s) (hm : m ≤ n) : OkFor m s :=
  fun k hk => h k (by omega)

theorem quietFor_mono {s : State} {m n : Nat} (h : QuietFor n s) (hm : m ≤ n) : QuietFor m s :=
  fun k hk => h k (by omega)

theorem okFor_of_quietFor {s : State} {n : Nat} (h : QuietFor n s) : OkFor n s := fun k hk => (h k hk).1

theorem busOk_of_okFor {s : State} {n : Nat} (h : OkFor (n + 1) s) : busOk s = true := by
  rw [busOk_eq]; exact h 0 (by omega)

theorem busOk_of_failsAt_zero {s : State} (h : FailsAt 0 s) : busOk s = false := by
  rw [busOk_eq]; exact h.2

/-- Before a quiet transaction the chip's space is as it was. -/
theorem envStep_mem_of_quietFor {s : State} {n : Nat} (h : QuietFor (n + 1) s) : (envStep s).mem = s.mem := by
  rw [envStep_mem, envNext_eq, (h 0 (by omega)).2, applyChip_nil]

/-! ### One transaction -/

/-- The chip's space at a transaction, its own changes made (R70). -/
theorem envStep_mem_eq (s : State) : (envStep s).mem = memNext s := by rw [envStep_mem, envNext_eq]; rfl

/-- What a read yields (R14, R75). -/
theorem busRead_eq (a : Addr) (w : Width) (s : State) :
    busRead a w s =
      if (envAt s 0).ok then some (Memory.value (memNext s) a.toNat (widthBytes w)) else none := by
  rw [busRead, busOk_eq, busValue, envStep_mem_eq]

/-- `try MemWrite` where the transaction succeeds. -/
theorem tryWrite_ok {a : Addr} {w : Width} {v : Word} {s : State} (h : busOk s = true) :
    tryWrite a w v s = .passed (busWrite a w v s) := by simp [tryWrite, h]

/-- `try MemWrite` where it fails. -/
theorem tryWrite_fail {a : Addr} {w : Width} {v : Word} {s : State} (h : busOk s = false) :
    tryWrite a w v s = .failed .transport (busWrite a w v s) := by simp [tryWrite, h]

@[simp] theorem andThen_passed (s : State) (k : State → Run) : andThen (.passed s) k = k s := rfl
@[simp] theorem andThen_failed (c : Cause) (s : State) (k : State → Run) : andThen (.failed c s) k = .failed c s := rfl

/-! ### A run of transactions -/

/-- `t` differs from `s` by bus transactions and delays alone: no register, port or configuration changed, the chip's
space kept its canonical form, and, where the register map fits, only legal accesses were issued. -/
structure OnlyBus (s t : State) : Prop where
  registers : SameRegisters s t
  response  : t.response = s.response
  requests  : t.requests = s.requests
  wf        : Memory.wf s.mem = true → Memory.wf t.mem = true
  issued    : ∃ es, t.trace = s.trace ++ es ∧ (RegMapFits s.params → es.all (legalEvent s.params) = true)

theorem OnlyBus.refl (s : State) : OnlyBus s s :=
  ⟨⟨rfl, rfl, rfl, rfl, rfl, rfl⟩, rfl, rfl, id, [], by simp, fun _ => rfl⟩

theorem OnlyBus.trans {s t u : State} (h : OnlyBus s t) (h' : OnlyBus t u) : OnlyBus s u := by
  obtain ⟨⟨a1, a2, a3, a4, a5, a6⟩, b, c, d, es, e1, e2⟩ := h
  obtain ⟨⟨a1', a2', a3', a4', a5', a6'⟩, b', c', d', es', e1', e2'⟩ := h'
  refine ⟨⟨a1'.trans a1, a2'.trans a2, a3'.trans a3, a4'.trans a4, a5'.trans a5, a6'.trans a6⟩, b'.trans b, c'.trans c,
    d' ∘ d, es ++ es', ?_, ?_⟩
  · rw [e1', e1, List.append_assoc]
  · intro hp
    have ht : t.params = s.params := by unfold State.params; rw [a6]
    rw [ht] at e2'
    rw [List.all_append, e2 hp, e2' hp]; rfl

/-- The configuration is that of the start. -/
theorem OnlyBus.params {s t : State} (h : OnlyBus s t) : t.params = s.params := by
  unfold State.params; rw [h.registers.2.2.2.2.2]

theorem onlyBus_busWrite {a : Addr} {w : Width} (v : Word) (s : State)
    (hl : RegMapFits s.params → ∀ v ok, legalEvent s.params (.write a w v ok) = true) : OnlyBus s (busWrite a w v s) := by
  refine ⟨by simp [SameRegisters], by simp, by simp, fun h => ?_, _, by simp; rfl, fun hp => by simp [hl hp]⟩
  rw [busWrite_mem]
  split
  · exact wf_store _ _ (wf_applyChip _ h)
  · exact wf_applyChip _ h

theorem onlyBus_afterRead {a : Addr} {w : Width} (s : State)
    (hl : RegMapFits s.params → ∀ v, legalEvent s.params (.read a w v) = true) :
    OnlyBus s (afterRead a w s) :=
  ⟨by simp [SameRegisters], by simp, by simp, fun h => by simpa using wf_applyChip _ h, _, by simp; rfl,
    fun hp => by simp [hl hp]⟩

theorem onlyBus_hostCommand (c : Byte) (s : State) : OnlyBus s (hostCommand c s) :=
  ⟨by simp [SameRegisters], by simp, by simp, fun h => by simpa using wf_applyChip _ h, _, by simp; rfl,
    fun _ => by simp [legalEvent]⟩

theorem onlyBus_sleep (d : Nat) (s : State) : OnlyBus s (sleep d s) :=
  ⟨by simp [SameRegisters], by simp, by simp, fun h => by simpa using h, _, by simp; rfl, fun _ => by simp [legalEvent]⟩

/-- Every one-byte FIFO write is legal (R65, R301). -/
theorem legal_write_fifo (p : Params) (c : BitVec 12) (i : Nat) (v : Word) (ok : Bool) :
    legalEvent p (.write (fifoAddr c i) .w8 v ok) = true := by
  have h := fifoAddr_toNat c i
  have hm : (c.toNat + i) % 4096 < 4096 := Nat.mod_lt _ (by decide)
  have : inFifo (fifoAddr c i) = true := by
    simp only [inFifo, cmdBase, cmdSize, Bool.and_eq_true, decide_eq_true_eq, h]
    omega
  simp [legalEvent, this]

/-- Where a run ends: the state it passed with, or the state it stopped in. -/
def endOf : Run → State
  | .passed s => s
  | .failed _ s => s

theorem endOf_andThen {r : Run} {k : State → Run} {P : State → Prop} (hf : ∀ c t, r = .failed c t → P t)
    (hp : ∀ t, r = .passed t → P (endOf (k t))) : P (endOf (andThen r k)) := by
  cases r with
  | passed t => exact hp t rfl
  | failed c t => exact hf c t rfl

theorem endOf_tryWrite (a : Addr) (w : Width) (v : Word) (s : State) : endOf (tryWrite a w v s) = busWrite a w v s := by
  unfold tryWrite; split <;> rfl

theorem endOf_tryHostCommand (c : Byte) (s : State) : endOf (tryHostCommand c s) = hostCommand c s := by
  unfold tryHostCommand; split <;> rfl

/-- A chain of runs, each of which only uses the bus, only uses the bus. -/
theorem onlyBus_andThen {s : State} {r : Run} {k : State → Run} (hr : OnlyBus s (endOf r))
    (hk : ∀ t, r = .passed t → OnlyBus t (endOf (k t))) : OnlyBus s (endOf (andThen r k)) := by
  cases r with
  | passed t => exact hr.trans (hk t rfl)
  | failed c t => exact hr

/-- A list of legal writes only uses the bus. -/
theorem onlyBus_tryWrites (ws : List (Addr × Width × Word)) (s : State)
    (hl : RegMapFits s.params → ∀ x ∈ ws, ∀ v ok, legalEvent s.params (.write x.1 x.2.1 v ok) = true) :
    OnlyBus s (endOf (tryWrites ws s)) := by
  induction ws generalizing s with
  | nil => exact OnlyBus.refl s
  | cons x ws ih =>
    obtain ⟨a, w, v⟩ := x
    have hw : OnlyBus s (endOf (tryWrite a w v s)) := by
      rw [endOf_tryWrite]
      exact onlyBus_busWrite v s fun hp => hl hp (a, w, v) (by simp)
    refine onlyBus_andThen hw fun t ht => ih t ?_
    rw [ht] at hw
    rw [show t.params = s.params from hw.params]
    exact fun hp x hx => hl hp x (by simp [hx])

/-- A failed list of writes failed on the transport. -/
theorem tryWrites_cause {ws : List (Addr × Width × Word)} {s t : State} {c : Cause}
    (h : tryWrites ws s = .failed c t) : c = .transport := by
  induction ws generalizing s with
  | nil => simp [tryWrites] at h
  | cons x ws ih =>
    obtain ⟨a, w, v⟩ := x
    simp only [tryWrites, tryWrite] at h
    split at h
    · exact ih h
    · simp only [andThen_failed, Run.failed.injEq] at h; exact h.1.symm

/-- The writes of a list as events, all successful. -/
def writeEvents (ws : List (Addr × Width × Word)) : List Event :=
  ws.map fun x => .write x.1 x.2.1 (truncTo x.2.1 x.2.2) true

/-- A list of writes that all succeed passes, issues exactly those writes, in order, and uses one action of the
environment for each. -/
theorem tryWrites_ok (ws : List (Addr × Width × Word)) (s : State) (h : OkFor ws.length s) :
    ∃ t, tryWrites ws s = .passed t ∧ t.trace = s.trace ++ writeEvents ws ∧ SameRegisters s t ∧
      t.response = s.response ∧ t.requests = s.requests ∧ ∀ k, envAt t k = envAt s (k + ws.length) := by
  induction ws generalizing s with
  | nil => exact ⟨s, rfl, by simp [writeEvents], ⟨rfl, rfl, rfl, rfl, rfl, rfl⟩, rfl, rfl, fun k => rfl⟩
  | cons x ws ih =>
    obtain ⟨a, w, v⟩ := x
    have hb : busOk s = true := busOk_of_okFor h
    obtain ⟨t, h1, h2, h3, h4, h5, h6⟩ := ih (busWrite a w v s) (okFor_of_shift (envAt_busWrite a w v s) h)
    refine ⟨t, ?_, ?_, ?_, by simpa using h4, by simpa using h5, fun k => ?_⟩
    · simp only [tryWrites, tryWrite_ok hb, andThen_passed, h1]
    · simp [h2, writeEvents, hb]
    · simpa [SameRegisters] using h3
    · rw [h6, envAt_busWrite]; simp [Nat.add_assoc]

/-- A list of writes whose first failure is that of write `n` stops there: it issues the writes up to and with that one
(R507). -/
theorem tryWrites_failsAt (ws : List (Addr × Width × Word)) (s : State) (n : Nat) (hn : n < ws.length)
    (h : FailsAt n s) :
    ∃ t, tryWrites ws s = .failed .transport t ∧ SameRegisters s t ∧
      t.trace = s.trace ++ (writeEvents (ws.take n) ++
        [.write ws[n].1 ws[n].2.1 (truncTo ws[n].2.1 ws[n].2.2) false]) := by
  induction ws generalizing s n with
  | nil => simp at hn
  | cons x ws ih =>
    obtain ⟨a, w, v⟩ := x
    cases n with
    | zero =>
      have hb := busOk_of_failsAt_zero h
      exact ⟨busWrite a w v s, by simp [tryWrites, tryWrite_fail hb], by simp [SameRegisters], by simp [writeEvents, hb]⟩
    | succ n =>
      have hb : busOk s = true := busOk_of_okFor h.1
      obtain ⟨t, h1, h2, h3⟩ := ih (busWrite a w v s) n (by simpa using hn) (failsAt_of_shift (envAt_busWrite a w v s) h)
      refine ⟨t, by simp only [tryWrites, tryWrite_ok hb, andThen_passed, h1], by simpa [SameRegisters] using h2, ?_⟩
      simp [h3, writeEvents, hb]

/-- A write that succeeds with the chip quiet stores its bytes and nothing else. -/
theorem busWrite_mem_quiet (a : Addr) (w : Width) (v : Word) {s : State} {n : Nat} (h : QuietFor (n + 1) s) :
    (busWrite a w v s).mem = Memory.store s.mem a.toNat (leBytes (widthBytes w) v) := by
  rw [busWrite_mem, busOk_of_okFor (okFor_of_quietFor h), envStep_mem_of_quietFor h]; rfl

/-- With the chip quiet, a list of writes leaves every address outside its writes' bytes alone. -/
theorem tryWrites_frame (ws : List (Addr × Width × Word)) (s t : State) (x : Nat) (h : QuietFor ws.length s)
    (hfit : ∀ e ∈ ws, e.1.toNat + widthBytes e.2.1 ≤ addressSpace)
    (hx : ∀ e ∈ ws, x < e.1.toNat ∨ e.1.toNat + widthBytes e.2.1 ≤ x) (ht : tryWrites ws s = .passed t) :
    Memory.get t.mem x = Memory.get s.mem x := by
  induction ws generalizing s with
  | nil => simp only [tryWrites, Run.passed.injEq] at ht; rw [ht]
  | cons e ws ih =>
    obtain ⟨a, w, v⟩ := e
    have hb : busOk s = true := busOk_of_okFor (okFor_of_quietFor h)
    simp only [tryWrites, tryWrite_ok hb, andThen_passed] at ht
    rw [ih (busWrite a w v s) (quietFor_of_shift (envAt_busWrite a w v s) h) (fun e he => hfit e (by simp [he]))
      (fun e he => hx e (by simp [he])) ht, busWrite_mem_quiet a w v h]
    exact get_store_outside _ _ _ (by simpa using hfit (a, w, v) (by simp)) (by simpa using hx (a, w, v) (by simp))

end Sys2Proof.Laws
end

