-- ==== Sys2Proof/Laws/Fifo.lean ====
section
/-! SUPPORT. What an append can do (R302, R304, R305): its byte writes are a list of writes, so it passes with the cursor
advanced and published, or stops at its first failing transaction. -/

namespace Sys2Proof.Laws

open Sys2Proof.Machine Sys2Proof.Safety

/-- The byte writes of an append as a list of writes, from logical offset `i` on. -/
def fifoWrites (cursor : BitVec 12) : Nat → List Int → List (Addr × Width × Word)
  | _, [] => []
  | i, b :: bs => (fifoAddr cursor i, .w8, (mask8 b).setWidth 32) :: fifoWrites cursor (i + 1) bs

theorem writeBytes_eq (cursor : BitVec 12) (i : Nat) (b : List Int) (s : State) :
    writeBytes cursor i b s = tryWrites (fifoWrites cursor i b) s := by
  induction b generalizing i s with
  | nil => rfl
  | cons b bs ih =>
    simp only [writeBytes, fifoWrites, tryWrites]
    congr 1
    funext t
    exact ih (i + 1) t

@[simp] theorem fifoWrites_length (cursor : BitVec 12) (i : Nat) (b : List Int) :
    (fifoWrites cursor i b).length = b.length := by
  induction b generalizing i with
  | nil => rfl
  | cons b bs ih => simp [fifoWrites, ih]

theorem fifoWrites_legal (p : Params) (cursor : BitVec 12) (i : Nat) (b : List Int) :
    ∀ x ∈ fifoWrites cursor i b, ∀ v ok, legalEvent p (.write x.1 x.2.1 v ok) = true := by
  induction b generalizing i with
  | nil => simp [fifoWrites]
  | cons b bs ih =>
    intro x hx v ok
    rcases List.mem_cons.mp hx with rfl | hx
    · exact legal_write_fifo p cursor i v ok
    · exact ih (i + 1) x hx v ok

/-- The events of the byte writes are those of R301 and R302. -/
theorem writeEvents_fifoWrites (cursor : BitVec 12) (i : Nat) (b : List Int) :
    writeEvents (fifoWrites cursor i b) = byteWrites cursor i b := by
  induction b generalizing i with
  | nil => rfl
  | cons b bs ih =>
    have h8 : truncTo .w8 ((mask8 b).setWidth 32) = BitVec.ofNat 32 (mask 8 b) := by
      have := mask_lt 8 b
      simp only [truncTo, widthBytes, mask8, BitVec.toNat_setWidth, BitVec.toNat_ofNat]
      congr 1
      omega
    simp only [writeEvents, fifoWrites, List.map_cons, byteWrites, h8] at *
    rw [ih]
    rfl

/-- The publish event carries the whole cursor. -/
theorem publish_event (p : Params) (c : BitVec 12) (ok : Bool) :
    Event.write (regAddr p .cmdWrite) .w32 (truncTo .w32 (c.setWidth 32)) ok = publishEvent p c ok := by
  have h := c.isLt
  have : truncTo .w32 (c.setWidth 32) = BitVec.ofNat 32 c.toNat := by
    simp only [truncTo, widthBytes, BitVec.toNat_setWidth]
    congr 1
    omega
  rw [this]; rfl

/-- An append whose transactions all succeed: the cursor advances, the bytes and the publish are issued in order, and
nothing else of the block changes (R302). -/
theorem append_ok (b : List Int) (s : State) (h : OkFor (b.length + 1) s) :
    ∃ t, append b s = .passed t ∧ t.cursor = advance s.cursor b.length ∧ SameButCursor s t ∧
      t.response = s.response ∧ t.requests = s.requests ∧
      t.trace = s.trace ++ (byteWrites s.cursor 0 b ++ [publishEvent s.params (advance s.cursor b.length) true]) ∧
      ∀ k, envAt t k = envAt s (k + (b.length + 1)) := by
  obtain ⟨u, h1, h2, h3, h4, h5, h6⟩ := tryWrites_ok (fifoWrites s.cursor 0 b) s
    (by rw [fifoWrites_length]; exact okFor_mono h (by omega))
  rw [fifoWrites_length] at h6
  have hb : busOk (setCursor (advance s.cursor b.length) u) = true := by
    rw [busOk_eq, envAt_setCursor, h6]; exact h _ (by omega)
  obtain ⟨c1, c2, c3, c4, c5, c6⟩ := h3
  have hpar : u.params = s.params := by unfold State.params; rw [c6]
  refine ⟨busWrite (regAddr s.params .cmdWrite) .w32 ((advance s.cursor b.length).setWidth 32)
    (setCursor (advance s.cursor b.length) u), ?_, by simp, ?_, by simpa using h4, by simpa using h5, ?_, ?_⟩
  · simp only [append, writeBytes_eq, h1, andThen_passed, publish, setCursor_cursor, setCursor_params, hpar, tryWrite_ok hb]
  · exact ⟨by simpa using c2, by simpa using c3, by simpa using c4, by simpa using c5, by simpa using c6⟩
  · rw [busWrite_trace, hb, publish_event, setCursor_trace, h2, writeEvents_fifoWrites, List.append_assoc]
  · intro k
    rw [envAt_busWrite, envAt_setCursor, h6]
    congr 1
    omega

/-- An append whose byte write `n` is the first failure stops there: the cursor is as before, nothing is published and no
later byte is written (R302, D21). -/
theorem append_failsAt_byte (b : List Int) (s : State) (n : Nat) (hn : n < b.length) (h : FailsAt n s) :
    ∃ t, append b s = .failed .transport t ∧ SameRegisters s t ∧
      t.trace = s.trace ++ (byteWrites s.cursor 0 (b.take n) ++
        [.write (fifoAddr s.cursor n) .w8 (BitVec.ofNat 32 (mask 8 b[n])) false]) := by
  have hn' : n < (fifoWrites s.cursor 0 b).length := by simpa using hn
  obtain ⟨t, h1, h2, h3⟩ := tryWrites_failsAt (fifoWrites s.cursor 0 b) s n hn' h
  refine ⟨t, by simp only [append, writeBytes_eq, h1, andThen_failed], h2, ?_⟩
  rw [h3]
  have htake : ∀ (i m : Nat) (b : List Int), (fifoWrites s.cursor i b).take m = fifoWrites s.cursor i (b.take m) := by
    intro i m b
    induction b generalizing i m with
    | nil => simp [fifoWrites]
    | cons b bs ih => cases m <;> simp [fifoWrites, ih]
  have hget : ∀ (i m : Nat) (b : List Int) (hm : m < (fifoWrites s.cursor i b).length) (hm' : m < b.length),
      (fifoWrites s.cursor i b)[m] = (fifoAddr s.cursor (i + m), .w8, (mask8 b[m]).setWidth 32) := by
    intro i m b hm hm'
    induction b generalizing i m with
    | nil => simp at hm'
    | cons b bs ih =>
      cases m with
      | zero => rfl
      | succ m =>
        have := ih (i + 1) m (by simpa using hm') (by simpa using hm')
        simpa [fifoWrites, Nat.add_assoc, Nat.add_comm 1 m] using this
  have h8 : ∀ v : Int, truncTo .w8 ((mask8 v).setWidth 32) = BitVec.ofNat 32 (mask 8 v) := by
    intro v
    have := mask_lt 8 v
    simp only [truncTo, widthBytes, mask8, BitVec.toNat_setWidth, BitVec.toNat_ofNat]
    congr 1
    omega
  rw [htake, writeEvents_fifoWrites, hget 0 n b hn' hn, Nat.zero_add, h8]

/-- An append whose publish is the first failure: the bytes are written and the cursor stays advanced (R302, D21). -/
theorem append_failsAt_publish (b : List Int) (s : State) (h : FailsAt b.length s) :
    ∃ t, append b s = .failed .transport t ∧ t.cursor = advance s.cursor b.length ∧ SameButCursor s t ∧
      t.trace = s.trace ++ (byteWrites s.cursor 0 b ++ [publishEvent s.params (advance s.cursor b.length) false]) := by
  obtain ⟨u, h1, h2, h3, -, -, h6⟩ := tryWrites_ok (fifoWrites s.cursor 0 b) s
    (by rw [fifoWrites_length]; exact h.1)
  rw [fifoWrites_length] at h6
  have hb : busOk (setCursor (advance s.cursor b.length) u) = false := by
    rw [busOk_eq, envAt_setCursor, h6, Nat.zero_add]; exact h.2
  obtain ⟨c1, c2, c3, c4, c5, c6⟩ := h3
  have hpar : u.params = s.params := by unfold State.params; rw [c6]
  refine ⟨busWrite (regAddr s.params .cmdWrite) .w32 ((advance s.cursor b.length).setWidth 32)
    (setCursor (advance s.cursor b.length) u), ?_, by simp, ?_, ?_⟩
  · simp only [append, writeBytes_eq, h1, andThen_passed, publish, setCursor_cursor, setCursor_params, hpar, tryWrite_fail hb]
  · exact ⟨by simpa using c2, by simpa using c3, by simpa using c4, by simpa using c5, by simpa using c6⟩
  · rw [busWrite_trace, hb, publish_event, setCursor_trace, h2, writeEvents_fifoWrites, List.append_assoc]

/-- `t` differs from `s` by bus transactions and by a cursor that is still a multiple of 4. -/
structure OnlyAppends (s t : State) : Prop where
  cursor   : s.cursor.toNat % 4 = 0 → t.cursor.toNat % 4 = 0
  others   : SameButCursor s t
  response : t.response = s.response
  requests : t.requests = s.requests
  wf       : Memory.wf s.mem = true → Memory.wf t.mem = true
  issued   : ∃ es, t.trace = s.trace ++ es ∧ (RegMapFits s.params → es.all (legalEvent s.params) = true)

theorem OnlyBus.onlyAppends {s t : State} (h : OnlyBus s t) : OnlyAppends s t :=
  ⟨fun hc => by rw [h.registers.1]; exact hc, h.registers.2, h.response, h.requests, h.wf, h.issued⟩

theorem OnlyAppends.refl (s : State) : OnlyAppends s s := (OnlyBus.refl s).onlyAppends

theorem OnlyAppends.trans {s t u : State} (h : OnlyAppends s t) (h' : OnlyAppends t u) : OnlyAppends s u := by
  obtain ⟨a, ⟨b1, b2, b3, b4, b5⟩, c, d, e, es, f1, f2⟩ := h
  obtain ⟨a', ⟨b1', b2', b3', b4', b5'⟩, c', d', e', es', f1', f2'⟩ := h'
  refine ⟨a' ∘ a, ⟨b1'.trans b1, b2'.trans b2, b3'.trans b3, b4'.trans b4, b5'.trans b5⟩, c'.trans c, d'.trans d,
    e' ∘ e, es ++ es', ?_, ?_⟩
  · rw [f1', f1, List.append_assoc]
  · intro hp
    have ht : t.params = s.params := by unfold State.params; rw [b5]
    rw [ht] at f2'
    rw [List.all_append, f2 hp, f2' hp]; rfl

theorem onlyAppends_setCursor (c : BitVec 12) (s : State) (hc : s.cursor.toNat % 4 = 0 → c.toNat % 4 = 0) :
    OnlyAppends s (setCursor c s) :=
  ⟨hc, ⟨rfl, rfl, rfl, rfl, rfl⟩, rfl, rfl, id, [], by simp, fun _ => rfl⟩

theorem onlyAppends_andThen {s : State} {r : Run} {k : State → Run} (hr : OnlyAppends s (endOf r))
    (hk : ∀ t, r = .passed t → OnlyAppends t (endOf (k t))) : OnlyAppends s (endOf (andThen r k)) := by
  cases r with
  | passed t => exact hr.trans (hk t rfl)
  | failed c t => exact hr

/-- Whatever the environment does, an append ends with bus transactions issued and the cursor a multiple of 4. -/
theorem onlyAppends_append (b : List Int) (s : State) : OnlyAppends s (endOf (append b s)) := by
  have hw : OnlyBus s (endOf (writeBytes s.cursor 0 b s)) := by
    rw [writeBytes_eq]; exact onlyBus_tryWrites _ _ fun _ => fifoWrites_legal _ s.cursor 0 b
  refine onlyAppends_andThen hw.onlyAppends fun t ht => ?_
  have hc : t.cursor = s.cursor := by rw [ht] at hw; exact hw.registers.1
  have ha : OnlyAppends t (setCursor (advance s.cursor b.length) t) :=
    onlyAppends_setCursor _ t fun h => advance_aligned (by rw [← hc]; exact h) _
  refine ha.trans ?_
  rw [publish, endOf_tryWrite]
  exact (onlyBus_busWrite _ _ fun hp v ok => legal_write_reg hp .cmdWrite .w32 v ok).onlyAppends

theorem onlyAppends_appendWords (h : List Int) (s : State) : OnlyAppends s (endOf (appendWords h s)) := by
  induction h generalizing s with
  | nil => exact OnlyAppends.refl s
  | cons w ws ih => exact onlyAppends_andThen (onlyAppends_append _ s) fun t _ => ih t

theorem onlyAppends_appendString (h str : List Int) (s : State) : OnlyAppends s (endOf (appendString h str s)) :=
  onlyAppends_andThen (onlyAppends_appendWords h s) fun t _ => onlyAppends_append _ t

/-- An append fails on the transport only (R302). -/
theorem append_cause {b : List Int} {s t : State} {c : Cause} (h : append b s = .failed c t) : c = .transport := by
  unfold append at h
  rw [writeBytes_eq] at h
  cases hw : tryWrites (fifoWrites s.cursor 0 b) s with
  | failed c' u =>
    rw [hw, andThen_failed] at h
    simp only [Run.failed.injEq] at h
    rw [← h.1]; exact tryWrites_cause hw
  | passed u =>
    rw [hw, andThen_passed] at h
    simp only [publish, tryWrite] at h
    split at h
    · simp at h
    · simp only [Run.failed.injEq] at h; exact h.1.symm

theorem appendWords_cause {ws : List Int} {s t : State} {c : Cause} (h : appendWords ws s = .failed c t) :
    c = .transport := by
  induction ws generalizing s with
  | nil => simp [appendWords] at h
  | cons w ws ih =>
    simp only [appendWords] at h
    cases hw : appendWord w s with
    | failed c' u => rw [hw, andThen_failed] at h; simp only [Run.failed.injEq] at h; rw [← h.1]; exact append_cause hw
    | passed u => rw [hw, andThen_passed] at h; exact ih h

theorem appendString_cause {hs str : List Int} {s t : State} {c : Cause} (h : appendString hs str s = .failed c t) :
    c = .transport := by
  unfold appendString at h
  cases hw : appendWords hs s with
  | failed c' u => rw [hw, andThen_failed] at h; simp only [Run.failed.injEq] at h; rw [← h.1]; exact appendWords_cause hw
  | passed u => rw [hw, andThen_passed] at h; exact append_cause h

@[simp] theorem wordBytes_length (w : Int) : (wordBytes w).length = 4 := by simp [wordBytes]

end Sys2Proof.Laws
end

