-- ==== Sys2Proof/Laws/Init.lean ====
section
/-! SUPPORT. What the initialization steps can do (R331 to R340): each step only uses the bus and moves INIT_STATE; the
whole forced path either ends initialized with cursor 0 or stops with the registers as they were; the probe either adopts
a write pointer or takes the forced path. -/

namespace Sys2Proof.Laws

open Sys2Proof.Machine Sys2Proof.Safety

/-- `t` differs from `s` by bus transactions, delays and INIT_STATE. -/
structure OnlyProgress (s t : State) : Prop where
  cursor      : t.cursor = s.cursor
  initialized : t.initialized = s.initialized
  debState    : t.debState = s.debState
  lastTag     : t.lastTag = s.lastTag
  given       : t.given = s.given
  response    : t.response = s.response
  requests    : t.requests = s.requests
  wf          : Memory.wf s.mem = true → Memory.wf t.mem = true
  issued      : ∃ es, t.trace = s.trace ++ es ∧ (RegMapFits s.params → es.all (legalEvent s.params) = true)

theorem OnlyBus.onlyProgress {s t : State} (h : OnlyBus s t) : OnlyProgress s t := by
  obtain ⟨⟨a1, a2, a3, a4, a5, a6⟩, b, c, d, e⟩ := h
  exact ⟨a1, a2, a4, a5, a6, b, c, d, e⟩

theorem OnlyProgress.refl (s : State) : OnlyProgress s s := (OnlyBus.refl s).onlyProgress

theorem OnlyProgress.trans {s t u : State} (h : OnlyProgress s t) (h' : OnlyProgress t u) : OnlyProgress s u := by
  obtain ⟨a1, a2, a3, a4, a5, b, c, d, es, e1, e2⟩ := h
  obtain ⟨a1', a2', a3', a4', a5', b', c', d', es', e1', e2'⟩ := h'
  refine ⟨a1'.trans a1, a2'.trans a2, a3'.trans a3, a4'.trans a4, a5'.trans a5, b'.trans b, c'.trans c, d' ∘ d,
    es ++ es', ?_, ?_⟩
  · rw [e1', e1, List.append_assoc]
  · intro hp
    rw [show t.params = s.params by unfold State.params; rw [a5]] at e2'
    rw [List.all_append, e2 hp, e2' hp]; rfl

/-- The configuration is that of the start. -/
theorem OnlyProgress.params {s t : State} (h : OnlyProgress s t) : t.params = s.params := by
  unfold State.params; rw [h.given]

theorem onlyProgress_setInitState (i : InitState) (s : State) : OnlyProgress s (setInitState i s) :=
  ⟨rfl, rfl, rfl, rfl, rfl, rfl, rfl, id, [], by simp, fun _ => rfl⟩

theorem onlyProgress_andThen {s : State} {r : Run} {k : State → Run} (hr : OnlyProgress s (endOf r))
    (hk : ∀ t, r = .passed t → OnlyProgress t (endOf (k t))) : OnlyProgress s (endOf (andThen r k)) := by
  cases r with
  | passed t => exact hr.trans (hk t rfl)
  | failed c t => exact hr

/-! ### Steps 1 to 5 -/

theorem timingWrites_legal {p : Params} (hp : RegMapFits p) :
    ∀ x ∈ timingWrites p, ∀ v ok, legalEvent p (.write x.1 x.2.1 v ok) = true := by
  intro x hx v ok
  simp only [timingWrites, List.mem_cons, List.not_mem_nil, or_false] at hx
  rcases hx with rfl | rfl | rfl | rfl | rfl | rfl | rfl | rfl | rfl | rfl | rfl | rfl | rfl <;>
    (dsimp only; exact legal_write_reg hp _ _ v ok)

theorem displayWrites_legal {p : Params} (hp : RegMapFits p) :
    ∀ x ∈ displayWrites p, ∀ v ok, legalEvent p (.write x.1 x.2.1 v ok) = true := by
  intro x hx v ok
  simp only [displayWrites, List.mem_append, List.mem_map, List.mem_cons, List.not_mem_nil, or_false] at hx
  rcases hx with ⟨r, -, rfl⟩ | rfl | rfl | rfl | rfl | rfl | rfl | rfl
  · exact legal_write_reg hp r.reg r.width v ok
  · simp [legalEvent, inInitialList, ramDlBase]
  · simp [legalEvent, inInitialList, ramDlBase]
  · simp [legalEvent, inInitialList, ramDlBase]
  all_goals (dsimp only; exact legal_write_reg hp _ _ v ok)

theorem onlyBus_tryHostCommand (c : Byte) (s : State) : OnlyBus s (endOf (tryHostCommand c s)) := by
  rw [endOf_tryHostCommand]; exact onlyBus_hostCommand c s

theorem onlyProgress_stepReset (s : State) : OnlyProgress s (endOf (stepReset s)) :=
  onlyProgress_andThen (onlyBus_tryHostCommand _ s).onlyProgress fun t _ =>
    (onlyBus_sleep _ t).onlyProgress.trans (onlyProgress_setInitState _ _)

/-- The ID check reads at most once and changes nothing (R333). -/
theorem onlyBus_checkId (s : State) : OnlyBus s (endOf (checkId s)) := by
  have hr := onlyBus_afterRead s (a := regAddr s.params .id) (w := .w8) fun hp v => legal_read_reg hp .id .w8 v
  unfold checkId
  split
  · unfold tryRead
    split
    · dsimp only
      split <;> exact hr
    · exact hr
  · exact OnlyBus.refl s

theorem onlyProgress_stepActive (s : State) : OnlyProgress s (endOf (stepActive s)) :=
  onlyProgress_andThen (onlyBus_tryHostCommand _ s).onlyProgress fun t _ =>
    onlyProgress_andThen ((onlyBus_sleep _ t).trans (onlyBus_checkId _)).onlyProgress fun _ _ =>
      onlyProgress_setInitState _ _

theorem onlyProgress_stepClock (s : State) : OnlyProgress s (endOf (stepClock s)) :=
  onlyProgress_andThen (onlyBus_tryHostCommand _ s).onlyProgress fun t _ =>
    (onlyBus_sleep _ t).onlyProgress.trans (onlyProgress_setInitState _ _)

theorem onlyProgress_stepTiming (s : State) : OnlyProgress s (endOf (stepTiming s)) :=
  onlyProgress_andThen (onlyBus_tryWrites _ s fun hp => timingWrites_legal hp).onlyProgress fun _ _ =>
    onlyProgress_setInitState _ _

theorem onlyProgress_stepDisplay (s : State) : OnlyProgress s (endOf (stepDisplay s)) :=
  onlyProgress_andThen (onlyBus_tryWrites _ s fun hp => displayWrites_legal hp).onlyProgress fun _ _ =>
    onlyProgress_setInitState _ _

/-- Steps 1 to 5 as one run. -/
theorem onlyProgress_toDisplay (s : State) :
    OnlyProgress s
      (endOf (andThen (andThen (andThen (andThen (stepReset s) stepActive) stepClock) stepTiming) stepDisplay)) :=
  onlyProgress_andThen (onlyProgress_andThen (onlyProgress_andThen (onlyProgress_andThen (onlyProgress_stepReset s)
    fun t _ => onlyProgress_stepActive t) fun t _ => onlyProgress_stepClock t) fun t _ => onlyProgress_stepTiming t)
    fun t _ => onlyProgress_stepDisplay t

/-! ### Step 6 -/

/-- The unmute writes only use the bus, whatever fails (R337, D17). -/
theorem onlyBus_unmute (rs : List RegWrite) (s : State) : OnlyBus s (unmute rs s) := by
  induction rs generalizing s with
  | nil => exact OnlyBus.refl s
  | cons r rs ih =>
    have hw := onlyBus_busWrite (a := regAddr s.params r.reg) (w := r.width) r.value s
      fun hp v ok => legal_write_reg hp r.reg r.width v ok
    unfold unmute
    split
    · exact hw.trans (ih _)
    · exact hw

/-- `t` is a state the sequence of `s` ends in with success: Verified, the session valid, the cursor 0. -/
structure Verified (s t : State) : Prop where
  cursor      : t.cursor = 0
  initialized : t.initialized = true
  initState   : t.initState = .verified
  debState    : t.debState = s.debState
  lastTag     : t.lastTag = s.lastTag
  given       : t.given = s.given
  response    : t.response = s.response
  requests    : t.requests = s.requests
  wf          : Memory.wf s.mem = true → Memory.wf t.mem = true
  issued      : ∃ es, t.trace = s.trace ++ es ∧ (RegMapFits s.params → es.all (legalEvent s.params) = true)

theorem OnlyProgress.verified {s t u : State} (h : OnlyProgress s t) (h' : Verified t u) : Verified s u := by
  obtain ⟨a1, a2, a3, a4, a5, b, c, d, es, e1, e2⟩ := h
  obtain ⟨f1, f2, f3, a3', a4', a5', b', c', d', es', e1', e2'⟩ := h'
  refine ⟨f1, f2, f3, a3'.trans a3, a4'.trans a4, a5'.trans a5, b'.trans b, c'.trans c, d' ∘ d, es ++ es', ?_, ?_⟩
  · rw [e1', e1, List.append_assoc]
  · intro hp
    rw [show t.params = s.params by unfold State.params; rw [a5]] at e2'
    rw [List.all_append, e2 hp, e2' hp]; rfl

/-- Everything step 6 can do: success, or a failure that leaves the registers alone (R337). -/
theorem stepVerify_cases (s : State) :
    (∃ t, stepVerify s = .passed t ∧ Verified s t) ∨ (∃ c t, stepVerify s = .failed c t ∧ OnlyProgress s t) := by
  have hg := onlyBus_afterRead s (a := regAddr s.params .gpio) (w := .w8) fun hp v => legal_read_reg hp .gpio .w8 v
  have hp := onlyBus_afterRead (afterRead (regAddr s.params .gpio) .w8 s) (a := regAddr s.params .pclk) (w := .w8)
    fun hp v => by simpa using legal_read_reg (by simpa using hp) .pclk .w8 v
  unfold stepVerify tryRead
  split
  · simp only
    split
    · split
      · refine Or.inl ⟨_, rfl, (hg.trans hp).onlyProgress.verified ?_⟩
        obtain ⟨⟨a1, a2, a3, a4, a5, a6⟩, b, c, d, es, e1, e2⟩ := onlyBus_unmute
          (afterRead (regAddr s.params .pclk) .w8 (afterRead (regAddr s.params .gpio) .w8 s)).params.unmuteWrites
          (setCursor 0 (setInitialized (afterRead (regAddr s.params .pclk) .w8 (afterRead (regAddr s.params .gpio) .w8 s))))
        exact ⟨by simpa using a1, by simpa using a2, rfl, by simpa using a4, by simpa using a5, by simpa using a6,
          by simpa using b, by simpa using c, by simpa using d, es, by simpa using e1, e2⟩
      · exact Or.inr ⟨_, _, rfl, (hg.trans hp).onlyProgress⟩
    · exact Or.inr ⟨_, _, rfl, (hg.trans hp).onlyProgress⟩
  · exact Or.inr ⟨_, _, rfl, hg.onlyProgress⟩

/-- Everything the forced path can do (R338, R339): it ends initialized, or stops with the registers but INIT_STATE as
they were. -/
theorem forcedSteps_cases (s : State) :
    (∃ t, forcedSteps s = .passed t ∧ Verified s t) ∨ (∃ c t, forcedSteps s = .failed c t ∧ OnlyProgress s t) := by
  have h := onlyProgress_toDisplay s
  unfold forcedSteps
  cases hr : andThen (andThen (andThen (andThen (stepReset s) stepActive) stepClock) stepTiming) stepDisplay with
  | failed c t => rw [hr] at h; exact Or.inr ⟨c, t, rfl, h⟩
  | passed t =>
    rw [hr] at h
    rcases stepVerify_cases t with ⟨u, h1, h2⟩ | ⟨c, u, h1, h2⟩
    · exact Or.inl ⟨u, h1, OnlyProgress.verified h h2⟩
    · exact Or.inr ⟨c, u, h1, OnlyProgress.trans h h2⟩

/-! ### The probe -/

/-- One probe read: it goes on with the value read, or takes the forced path (R340). -/
theorem probeRead_cases (a : Addr) (w : Width) (good : Word → Bool) (k : Word → State → State) (s : State) :
    (busOk s = true ∧ good (busValue a w s) = true ∧
      probeRead a w good k s = k (busValue a w s) (afterRead a w s)) ∨
    probeRead a w good k s = probeForced (afterRead a w s) := by
  unfold probeRead
  split
  · rename_i h
    simp only [Bool.and_eq_true] at h
    exact Or.inl ⟨h.1, h.2, rfl⟩
  · exact Or.inr rfl

/-- A write pointer that may be adopted fits the cursor and is a multiple of 4 (R340). -/
theorem adoptable_spec {w : Word} (h : adoptable w = true) :
    (BitVec.ofNat 12 w.toNat).toNat = w.toNat ∧ w.toNat % 4 = 0 := by
  have hlt : w.toNat < 4096 := of_decide_eq_true (Bool.and_eq_true_iff.mp h).1
  refine ⟨?_, of_decide_eq_true (Bool.and_eq_true_iff.mp h).2⟩
  rw [BitVec.toNat_ofNat]
  omega

/-- Everything INIT_PROBE can do (R340): it adopts the pointer that its third read yields, or takes the forced path from a
state that differs from the start by probe reads. -/
theorem initProbe_cases (s : State) :
    ∃ u, OnlyBus (startInit s) u ∧
      (exec .initProbe s = .next (probeForced u) ∨
        ∃ w, adoptable w = true ∧ exec .initProbe s = .next (adopt w u)) := by
  have hread : ∀ (r : Reg) (w : Width) (v : State), v.params = s.params → OnlyBus v (afterRead (regAddr s.params r) w v) :=
    fun r w v hv => onlyBus_afterRead v fun hp x => by rw [hv] at hp ⊢; exact legal_read_reg hp r w x
  have he : exec .initProbe s = .next (probeRead (regAddr s.params .gpio) .w8 (gpioShowsDisplay s.params)
    (fun _ => probeRead (regAddr s.params .pclk) .w8 (pclkShowsDivisor s.params)
      (fun _ => probeRead (regAddr s.params .cmdWrite) .w32 adoptable adopt)) (startInit s)) := rfl
  rw [he]
  have hv : (startInit s).params = s.params := rfl
  generalize startInit s = v at hv
  have o1 := hread .gpio .w8 v hv
  rcases probeRead_cases (regAddr s.params .gpio) .w8 (gpioShowsDisplay s.params)
    (fun _ => probeRead (regAddr s.params .pclk) .w8 (pclkShowsDivisor s.params)
      (fun _ => probeRead (regAddr s.params .cmdWrite) .w32 adoptable adopt)) v with ⟨-, -, h⟩ | h
  swap
  · exact ⟨_, o1, Or.inl (by rw [h])⟩
  rw [h]
  have o2 := o1.trans (hread .pclk .w8 _ (by simpa using hv))
  rcases probeRead_cases (regAddr s.params .pclk) .w8 (pclkShowsDivisor s.params)
    (fun _ => probeRead (regAddr s.params .cmdWrite) .w32 adoptable adopt) (afterRead (regAddr s.params .gpio) .w8 v) with ⟨-, -, h⟩ | h
  swap
  · exact ⟨_, o2, Or.inl (by rw [h])⟩
  rw [h]
  have o3 := o2.trans (hread .cmdWrite .w32 _ (by simpa using hv))
  rcases probeRead_cases (regAddr s.params .cmdWrite) .w32 adoptable adopt
    (afterRead (regAddr s.params .pclk) .w8 (afterRead (regAddr s.params .gpio) .w8 v)) with ⟨-, hw, h⟩ | h
  · exact ⟨_, o3, Or.inr ⟨_, hw, by rw [h]⟩⟩
  · exact ⟨_, o3, Or.inl (by rw [h])⟩

end Sys2Proof.Laws
end

