-- ==== Sys2Proof/Laws/Forced.lean ====
section
/-! SUPPORT. Bookkeeping for the initialization sequence: `Reached s es n m t` says that after `n` transactions with the
trace `es` the machine that began in `s` stands in `t` with the chip's space `m`; one lemma for each kind of transaction
carries it on, or says where a failure leaves it. -/

namespace Sys2Proof.Laws

open Sys2Proof.Machine Sys2Proof.Safety

/-- A one-byte read yields the byte, widened with zeros (R14). -/
theorem value_one (m : Memory) (a : Nat) (h : a < addressSpace) : Memory.value m a 1 = (Memory.get m a).setWidth 32 := by
  apply BitVec.eq_of_toNat_eq
  have := (Memory.get m a).isLt
  simp [Memory.value, Memory.load, ofLeBytes, Nat.mod_eq_of_lt h]

/-- Bytes widened with zeros are equal exactly when the bytes are. -/
theorem setWidth_byte_inj (a b : Byte) : a.setWidth 32 = b.setWidth 32 ↔ a = b := by
  refine ⟨fun h => BitVec.eq_of_toNat_eq ?_, fun h => by rw [h]⟩
  have := congrArg BitVec.toNat h
  simp only [BitVec.toNat_setWidth] at this
  have := a.isLt
  have := b.isLt
  omega

/-- An 8-bit write of a widened byte writes that byte's value (R14). -/
theorem truncTo_byte (b : Byte) : truncTo .w8 (b.setWidth 32) = BitVec.ofNat 32 b.toNat := by
  apply BitVec.eq_of_toNat_eq
  have := b.isLt
  simp [truncTo, widthBytes]
  omega

/-- A 16-bit write of a widened half writes that half's value (R14). -/
theorem truncTo_half (b : Half) : truncTo .w16 (b.setWidth 32) = BitVec.ofNat 32 b.toNat := by
  apply BitVec.eq_of_toNat_eq
  have := b.isLt
  simp [truncTo, widthBytes]
  omega

/-- The GPIO check on a byte (R337). -/
theorem gpioShowsDisplay_byte (p : Params) (b : Byte) :
    gpioShowsDisplay p (b.setWidth 32) = decide (b &&& p.gpioDispMask = p.gpioDispMask) := by
  unfold gpioShowsDisplay
  rw [← BitVec.setWidth_and, show ∀ x y : Word, (x == y) = decide (x = y) from fun _ _ => rfl, decide_eq_decide]
  exact setWidth_byte_inj _ _

/-- The pixel-clock check on a byte (R337). -/
theorem pclkShowsDivisor_byte (p : Params) (b : Byte) :
    pclkShowsDivisor p (b.setWidth 32) = decide (b = p.pclkDiv) := by
  unfold pclkShowsDivisor
  rw [show ∀ x y : Word, (x == y) = decide (x = y) from fun _ _ => rfl, decide_eq_decide]
  exact setWidth_byte_inj _ _

/-- The chip's space after a list of writes, the chip changing nothing itself. -/
def storeAll (m : Memory) (ws : List (Addr × Width × Word)) : Memory :=
  ws.foldl (fun m x => Memory.store m x.1.toNat (leBytes (widthBytes x.2.1) x.2.2)) m

/-- With the chip quiet, a list of writes that passes stores each write's bytes, in order. -/
theorem tryWrites_mem (ws : List (Addr × Width × Word)) (s t : State) (h : QuietFor ws.length s)
    (ht : tryWrites ws s = .passed t) : t.mem = storeAll s.mem ws := by
  induction ws generalizing s with
  | nil => simp only [tryWrites, Run.passed.injEq] at ht; rw [← ht]; rfl
  | cons e ws ih =>
    obtain ⟨a, w, v⟩ := e
    have hb : busOk s = true := busOk_of_okFor (okFor_of_quietFor h)
    simp only [tryWrites, tryWrite_ok hb, andThen_passed] at ht
    rw [ih _ (quietFor_of_shift (envAt_busWrite a w v s) h) ht, busWrite_mem_quiet a w v h]
    rfl

/-- From `s` the machine has come to `t` by `n` transactions whose trace is `es`: the registers other than INITIALIZED
and INIT_STATE are those of `s`, no session is valid, and the chip's space is `m`. -/
structure Reached (s : State) (es : List Event) (n : Nat) (m : Memory) (t : State) : Prop where
  cursor      : t.cursor = s.cursor
  initialized : t.initialized = false
  debState    : t.debState = s.debState
  lastTag     : t.lastTag = s.lastTag
  given       : t.given = s.given
  requests    : t.requests = s.requests
  trace       : t.trace = s.trace ++ es
  ahead       : ∀ k, envAt t k = envAt s (k + n)
  mem         : t.mem = m

variable {s t : State} {es : List Event} {n N : Nat} {m : Memory}

theorem reached_start (s : State) : Reached s [] 0 s.mem (startInit s) :=
  ⟨rfl, rfl, rfl, rfl, rfl, rfl, by simp [startInit], fun _ => rfl, rfl⟩

theorem Reached.params (h : Reached s es n m t) : t.params = s.params := by unfold State.params; rw [h.given]

theorem Reached.busOk (h : Reached s es n m t) (q : OkFor N s) (hn : n < N) : busOk t = true := by
  rw [busOk_eq, h.ahead]; exact q _ (by omega)

theorem Reached.busFails (h : Reached s es n m t) (f : (envAt s n).ok = false) : Machine.busOk t = false := by
  rw [busOk_eq, h.ahead]; simpa using f

theorem Reached.setInitState (h : Reached s es n m t) (i : InitState) : Reached s es n m (setInitState i t) :=
  ⟨h.cursor, h.initialized, h.debState, h.lastTag, h.given, h.requests, h.trace, h.ahead, h.mem⟩

theorem Reached.sleep (h : Reached s es n m t) (d : Nat) : Reached s (es ++ [.sleep d]) n m (sleep d t) :=
  ⟨h.cursor, h.initialized, h.debState, h.lastTag, h.given, h.requests, by simp [h.trace], h.ahead, h.mem⟩

/-- The chip's space at the next transaction, its own changes made. -/
theorem Reached.memAhead (h : Reached s es n m t) : (envStep t).mem = Memory.applyChip m (envAt s n).chip := by
  rw [envStep_mem, envNext_eq, h.ahead, h.mem]; simp

/-- A host command, successful or not. -/
theorem Reached.hostCommand (h : Reached s es n m t) (c : Byte) :
    Reached s (es ++ [.hostCommand c (envAt s n).ok]) (n + 1) (Memory.applyChip m (envAt s n).chip) (hostCommand c t) :=
  ⟨by simp [h.cursor], by simp [h.initialized], by simp [h.debState], by simp [h.lastTag], by simp [h.given],
    by simp [h.requests], by simp [h.trace, busOk_eq, h.ahead], fun k => by rw [envAt_hostCommand, h.ahead]; congr 1; omega,
    h.memAhead⟩

/-- A read, successful or not. -/
theorem Reached.read (h : Reached s es n m t) (a : Addr) (w : Width) :
    Reached s (es ++ [.read a w (if (envAt s n).ok then
        some (Memory.value (Memory.applyChip m (envAt s n).chip) a.toNat (widthBytes w)) else none)])
      (n + 1) (Memory.applyChip m (envAt s n).chip) (afterRead a w t) := by
  refine ⟨by simp [h.cursor], by simp [h.initialized], by simp [h.debState], by simp [h.lastTag], by simp [h.given],
    by simp [h.requests], ?_, fun k => by rw [envAt_afterRead, h.ahead]; congr 1; omega, h.memAhead⟩
  have : busRead a w t = if (envAt s n).ok then
      some (Memory.value (Memory.applyChip m (envAt s n).chip) a.toNat (widthBytes w)) else none := by
    rw [busRead, busValue, busOk_eq, h.ahead, h.memAhead, Nat.zero_add]
  simp [h.trace, this]

/-- A list of writes that all succeed while the chip is quiet. -/
theorem Reached.writes (h : Reached s es n m t) (q : QuietFor N s) (ws : List (Addr × Width × Word))
    (hn : n + ws.length ≤ N) :
    ∃ t', tryWrites ws t = .passed t' ∧
      Reached s (es ++ writeEvents ws) (n + ws.length) (storeAll m ws) t' := by
  have q' : QuietFor ws.length t := fun k hk => by rw [h.ahead]; exact q _ (by omega)
  obtain ⟨t', h1, h2, ⟨a1, a2, _, a4, a5, a6⟩, _, h5, h6⟩ := tryWrites_ok ws t (okFor_of_quietFor q')
  exact ⟨t', h1, a1.trans h.cursor, a2.trans h.initialized, a4.trans h.debState, a5.trans h.lastTag, a6.trans h.given,
    h5.trans h.requests, by rw [h2, h.trace, List.append_assoc], fun k => by rw [h6, h.ahead]; congr 1; omega,
    by rw [tryWrites_mem ws t t' q' h1, h.mem]⟩

/-- A list of legal writes whose first failure is that of write `k`. -/
theorem Reached.writesStop (h : Reached s es n m t) {k : Nat} (q : FailsAt (n + k) s)
    (ws : List (Addr × Width × Word)) (hk : k < ws.length)
    (hl : RegMapFits s.params → ∀ x ∈ ws, ∀ v ok, legalEvent s.params (.write x.1 x.2.1 v ok) = true) :
    ∃ t', tryWrites ws t = .failed .transport t' ∧ t'.cursor = s.cursor ∧ t'.initialized = false ∧
      t'.debState = s.debState ∧ t'.lastTag = s.lastTag ∧ t'.given = s.given ∧ t'.requests = s.requests ∧
      t'.trace = s.trace ++ (es ++ (writeEvents (ws.take k) ++
        [.write ws[k].1 ws[k].2.1 (truncTo ws[k].2.1 ws[k].2.2) false])) := by
  have q' : FailsAt k t :=
    ⟨fun j hj => by rw [h.ahead]; exact q.1 _ (by omega), by rw [h.ahead, Nat.add_comm]; exact q.2⟩
  obtain ⟨t', h1, ⟨a1, a2, _, a4, a5, a6⟩, h2⟩ := tryWrites_failsAt ws t k hk q'
  have hA := onlyBus_tryWrites ws t (by rw [h.params]; exact hl)
  rw [h1] at hA
  exact ⟨t', h1, a1.trans h.cursor, a2.trans h.initialized, a4.trans h.debState, a5.trans h.lastTag, a6.trans h.given,
    hA.requests.trans h.requests, by rw [h2, h.trace, List.append_assoc]⟩

end Sys2Proof.Laws
end

