-- ==== Sys2Proof/Laws/PerInstr.lean ====
section
/-! SUPPORT. A fact of the syntax, one lemma per constructor: the request that an operation is spelled by carries an
assigned OPSEL and operands of the kinds and count its rule names (R120, R121, R123). -/

namespace Sys2Proof.Laws

/-- The operation's request names an assigned OPSEL with operands of its kinds and count. -/
def OpselAssigned.Statement (i : Instr) : Prop :=
  operandKinds (encode i).opsel = some ((encode i).operands.map Operand.kind)

theorem OpselAssigned.display : OpselAssigned.Statement (.display) := rfl
theorem OpselAssigned.bitmapSource (addr : Int) : OpselAssigned.Statement (.bitmapSource addr) := rfl
theorem OpselAssigned.clearColorRgb (red green blue : Int) : OpselAssigned.Statement (.clearColorRgb red green blue) := rfl
theorem OpselAssigned.tag (v : Int) : OpselAssigned.Statement (.tag v) := rfl
theorem OpselAssigned.colorRgb (red green blue : Int) : OpselAssigned.Statement (.colorRgb red green blue) := rfl
theorem OpselAssigned.bitmapHandle (handle : Int) : OpselAssigned.Statement (.bitmapHandle handle) := rfl
theorem OpselAssigned.cell (cellNo : Int) : OpselAssigned.Statement (.cell cellNo) := rfl
theorem OpselAssigned.bitmapLayout (format linestride height : Int) : OpselAssigned.Statement (.bitmapLayout format linestride height) := rfl
theorem OpselAssigned.bitmapSize (filter wrapx wrapy width height : Int) : OpselAssigned.Statement (.bitmapSize filter wrapx wrapy width height) := rfl
theorem OpselAssigned.alphaFunc (func ref : Int) : OpselAssigned.Statement (.alphaFunc func ref) := rfl
theorem OpselAssigned.stencilFunc (func ref mask : Int) : OpselAssigned.Statement (.stencilFunc func ref mask) := rfl
theorem OpselAssigned.blendFunc (src dst : Int) : OpselAssigned.Statement (.blendFunc src dst) := rfl
theorem OpselAssigned.stencilOp (sfail spass : Int) : OpselAssigned.Statement (.stencilOp sfail spass) := rfl
theorem OpselAssigned.pointSize (size : Int) : OpselAssigned.Statement (.pointSize size) := rfl
theorem OpselAssigned.lineWidth (width : Int) : OpselAssigned.Statement (.lineWidth width) := rfl
theorem OpselAssigned.clearColorA (alpha : Int) : OpselAssigned.Statement (.clearColorA alpha) := rfl
theorem OpselAssigned.colorA (alpha : Int) : OpselAssigned.Statement (.colorA alpha) := rfl
theorem OpselAssigned.clearStencil (v : Int) : OpselAssigned.Statement (.clearStencil v) := rfl
theorem OpselAssigned.clearTag (v : Int) : OpselAssigned.Statement (.clearTag v) := rfl
theorem OpselAssigned.stencilMask (mask : Int) : OpselAssigned.Statement (.stencilMask mask) := rfl
theorem OpselAssigned.tagMask (mask : Int) : OpselAssigned.Statement (.tagMask mask) := rfl
theorem OpselAssigned.bitmapTransformA (a : Int) : OpselAssigned.Statement (.bitmapTransformA a) := rfl
theorem OpselAssigned.bitmapTransformB (b : Int) : OpselAssigned.Statement (.bitmapTransformB b) := rfl
theorem OpselAssigned.bitmapTransformC (c : Int) : OpselAssigned.Statement (.bitmapTransformC c) := rfl
theorem OpselAssigned.bitmapTransformD (d : Int) : OpselAssigned.Statement (.bitmapTransformD d) := rfl
theorem OpselAssigned.bitmapTransformE (e : Int) : OpselAssigned.Statement (.bitmapTransformE e) := rfl
theorem OpselAssigned.bitmapTransformF (f : Int) : OpselAssigned.Statement (.bitmapTransformF f) := rfl
theorem OpselAssigned.scissorXy (x y : Int) : OpselAssigned.Statement (.scissorXy x y) := rfl
theorem OpselAssigned.scissorSize (width height : Int) : OpselAssigned.Statement (.scissorSize width height) := rfl
theorem OpselAssigned.call (dest : Int) : OpselAssigned.Statement (.call dest) := rfl
theorem OpselAssigned.jump (dest : Int) : OpselAssigned.Statement (.jump dest) := rfl
theorem OpselAssigned.beginPrim (prim : Int) : OpselAssigned.Statement (.beginPrim prim) := rfl
theorem OpselAssigned.colorMask (r g b a : Int) : OpselAssigned.Statement (.colorMask r g b a) := rfl
theorem OpselAssigned.endPrim : OpselAssigned.Statement (.endPrim) := rfl
theorem OpselAssigned.saveContext : OpselAssigned.Statement (.saveContext) := rfl
theorem OpselAssigned.restoreContext : OpselAssigned.Statement (.restoreContext) := rfl
theorem OpselAssigned.returnList : OpselAssigned.Statement (.returnList) := rfl
theorem OpselAssigned.macroWord (m : Int) : OpselAssigned.Statement (.macroWord m) := rfl
theorem OpselAssigned.clear (color stencil tagBit : Int) : OpselAssigned.Statement (.clear color stencil tagBit) := rfl
theorem OpselAssigned.vertex2f (x y : Int) : OpselAssigned.Statement (.vertex2f x y) := rfl
theorem OpselAssigned.vertex2ii (x y handle cellNo : Int) : OpselAssigned.Statement (.vertex2ii x y handle cellNo) := rfl
theorem OpselAssigned.cmdDlstart : OpselAssigned.Statement (.cmdDlstart) := rfl
theorem OpselAssigned.cmdSwap : OpselAssigned.Statement (.cmdSwap) := rfl
theorem OpselAssigned.cmdCalibrate : OpselAssigned.Statement (.cmdCalibrate) := rfl
theorem OpselAssigned.cmdText (x y font options : Int) : OpselAssigned.Statement (.cmdText x y font options) := rfl
theorem OpselAssigned.cmdButton (x y w h font options : Int) : OpselAssigned.Statement (.cmdButton x y w h font options) := rfl
theorem OpselAssigned.cmdSpinner (x y style scale : Int) : OpselAssigned.Statement (.cmdSpinner x y style scale) := rfl
theorem OpselAssigned.writeWord (w : Int) : OpselAssigned.Statement (.writeWord w) := rfl
theorem OpselAssigned.writeBuffer (b : List Int) : OpselAssigned.Statement (.writeBuffer b) := rfl
theorem OpselAssigned.writeStringCmd (h : List Int) (str : List Int) : OpselAssigned.Statement (.writeStringCmd h str) := rfl
theorem OpselAssigned.fifoEmpty : OpselAssigned.Statement (.fifoEmpty) := rfl
theorem OpselAssigned.initForced : OpselAssigned.Statement (.initForced) := rfl
theorem OpselAssigned.initProbe : OpselAssigned.Statement (.initProbe) := rfl
theorem OpselAssigned.getTouchRawXy : OpselAssigned.Statement (.getTouchRawXy) := rfl
theorem OpselAssigned.getTouchScreenXy : OpselAssigned.Statement (.getTouchScreenXy) := rfl
theorem OpselAssigned.getTouchTag : OpselAssigned.Statement (.getTouchTag) := rfl
theorem OpselAssigned.getTouchTransform : OpselAssigned.Statement (.getTouchTransform) := rfl
theorem OpselAssigned.setTouchTransform (c0 c1 c2 c3 c4 c5 : Int) : OpselAssigned.Statement (.setTouchTransform c0 c1 c2 c3 c4 c5) := rfl
theorem OpselAssigned.buttonPoll : OpselAssigned.Statement (.buttonPoll) := rfl
theorem OpselAssigned.discardActiveButton : OpselAssigned.Statement (.discardActiveButton) := rfl

end Sys2Proof.Laws
end

