-- ==== Sys2Proof/Laws/Touch.lean ====
section
/-! SUPPORT. What the touch operations and the debounce poll can do (R370 to R396): reads alone, then an answer. -/

namespace Sys2Proof.Laws

open Sys2Proof.Machine Sys2Proof.Safety

/-- A register read only uses the bus. -/
theorem onlyBus_readReg (r : Reg) (w : Width) (s : State) : OnlyBus s (afterRead (regAddr s.params r) w s) :=
  onlyBus_afterRead s fun hp v => legal_read_reg hp r w v

/-- Everything the coefficient reads can do (R376): all six values, or the transport failure with no coefficient. -/
theorem readCoeffs_cases (rs : List Reg) (cs : List Word) (s : State) :
    ∃ u, OnlyBus s u ∧
      ((∃ cs', readCoeffs rs cs s = respond .ok (.coeff cs') u ∧ cs'.length = cs.length + rs.length) ∨
        readCoeffs rs cs s = respond (.fail .transport) .none u) := by
  induction rs generalizing cs s with
  | nil => exact ⟨s, OnlyBus.refl s, Or.inl ⟨cs, rfl, rfl⟩⟩
  | cons r rs ih =>
    have hr := onlyBus_readReg r .w32 s
    unfold readCoeffs
    split
    · obtain ⟨u, h1, h2⟩ := ih (cs ++ [busValue (regAddr s.params r) .w32 s]) (afterRead (regAddr s.params r) .w32 s)
      refine ⟨u, hr.trans h1, ?_⟩
      rcases h2 with ⟨cs', h2, h3⟩ | h2
      · exact Or.inl ⟨cs', h2, by rw [h3]; simp; omega⟩
      · exact Or.inr h2
    · exact ⟨_, hr, Or.inr rfl⟩

/-- A poll changes DEB_STATE, LAST_TAG and the response and nothing else (R394). -/
theorem poll_frame (t : Byte) (s : State) :
    (poll t s).cursor = s.cursor ∧ (poll t s).initialized = s.initialized ∧ (poll t s).initState = s.initState ∧
      (poll t s).lastTag = t ∧ (poll t s).given = s.given ∧ (poll t s).mem = s.mem ∧ (poll t s).trace = s.trace ∧
      (poll t s).requests = s.requests := ⟨rfl, rfl, rfl, rfl, rfl, rfl, rfl, rfl⟩

/-- A poll whose tag is not real ends in NoButton (R41, R395). -/
theorem debStep_none {t : Byte} (h : isReal t = false) (d : DebState) (last : Byte) :
    (debStep d last t).1 = .noButton := by cases d <;> simp [debStep, h]

/-- The write list of the six coefficients is legal (R63, R66). -/
theorem coeffWrites_legal {p : Params} (hp : RegMapFits p) (cs : List Int) :
    ∀ x ∈ coeffWrites p cs, ∀ v ok, legalEvent p (.write x.1 x.2.1 v ok) = true := by
  intro x hx v ok
  unfold coeffWrites at hx
  obtain ⟨i, hi, rfl⟩ := List.mem_iff_getElem.mp hx
  rw [List.getElem_zipWith]
  exact legal_write_reg hp _ _ v ok

end Sys2Proof.Laws
end

