-- ==== Sys2Proof/Tests/Slice0.lean ====
section
/-! SUPPORT. Tests of the model. Expected values come from spec/95_test_vectors.md (the vector is named in each docstring)
or are written out from the rule named; each statement with hypotheses has here a witness that meets them. -/

namespace Sys2Proof.Tests

open Sys2Proof Sys2Proof.Machine Sys2Proof.Safety

/-! ### Helpers -/

/-- The example panel of the reference environment ENV-REF. -/
def panel : PanelTiming where
  hcycle := 548
  hoffset := 43
  hsync0 := 0
  hsync1 := 41
  hsize := 480
  vcycle := 292
  voffset := 12
  vsync0 := 0
  vsync1 := 10
  vsize := 272
  pclkPol := 1
  swizzle := 0
  cspread := 1

/-- The parameters of ENV-REF, with the delays 3, 2, 1. -/
def params : Params :=
  { defaultParams with
    tReset := 3, tActive := 2, tClk := 1, panel := panel, pclkDiv := 5,
    muteWrites := [⟨.volSound, .w8, 0x00⟩], unmuteWrites := [⟨.volSound, .w8, 0xFF⟩] }

/-- `n` successful transactions, the chip quiet. -/
def quiet (n : Nat) : List EnvAction := List.replicate n ⟨[], true⟩

/-- `n` successful transactions, then a failed one, then successful ones. -/
def failAt (n : Nat) : List EnvAction := quiet n ++ [⟨[], false⟩] ++ quiet 30

/-- The reset state with an environment, the chip's bytes and the parameters of ENV-REF. -/
def start (env : List EnvAction) (mem : Memory) : State := { State.reset with env := env, mem := mem, given := some params }

/-- "Ready at c" of ENV-REF. -/
def ready (c : BitVec 12) (env : List EnvAction) (mem : Memory) : State :=
  { start env mem with cursor := c, initialized := true, initState := .verified }

/-- A component of the state after an operation. -/
def after {α : Type} (f : State → α) (i : Instr) (s : State) : Option α :=
  match exec i s with
  | .next t => some (f t)
  | _ => none

/-- The ID byte of ENV-REF. -/
def idByte : Memory := [(0x102400, 0x7C)]

/-- A display that a probe finds running, its write pointer 0x120. -/
def running : Memory := [(0x10246C, 5), (0x102490, 0x80), (0x1024E8, 0x20), (0x1024E9, 0x01)]

/-! ### WellFormed -/

/-- Each field one above its range, the others 0: refused (widths of opcode_table.json). -/
theorem test_wellFormed_refuses_above_1 :
    ([
      .bitmapSource 1048576, .clearColorRgb 256 0 0, .clearColorRgb 0 256 0, .clearColorRgb 0 0 256, .tag 256,
      .colorRgb 256 0 0, .colorRgb 0 256 0, .colorRgb 0 0 256, .bitmapHandle 32, .cell 128,
      .bitmapLayout 32 0 0, .bitmapLayout 0 1024 0, .bitmapLayout 0 0 512, .bitmapSize 2 0 0 0 0,
      .bitmapSize 0 2 0 0 0, .bitmapSize 0 0 2 0 0, .bitmapSize 0 0 0 512 0, .bitmapSize 0 0 0 0 512,
      .alphaFunc 8 0, .alphaFunc 0 256, .stencilFunc 16 0 0, .stencilFunc 0 256 0, .stencilFunc 0 0 256,
      .blendFunc 8 0, .blendFunc 0 8, .stencilOp 8 0, .stencilOp 0 8, .pointSize 8192, .lineWidth 4096,
      .clearColorA 256, .colorA 256, .clearStencil 256, .clearTag 256, .stencilMask 256, .tagMask 2,
      .bitmapTransformA 65536, .bitmapTransformB 65536, .bitmapTransformC 8388608, .bitmapTransformD 65536,
      .bitmapTransformE 65536] : List Instr).all (fun i => !i.wellFormed) = true := by decide

/-- Each field one above its range, the others 0: refused (widths of opcode_table.json). -/
theorem test_wellFormed_refuses_above_2 :
    ([
      .bitmapTransformF 8388608, .scissorXy 512 0, .scissorXy 0 512, .scissorSize 1024 0, .scissorSize 0 1024,
      .call 65536, .jump 65536, .beginPrim 16, .colorMask 2 0 0 0, .colorMask 0 2 0 0, .colorMask 0 0 2 0,
      .colorMask 0 0 0 2, .macroWord 2, .clear 2 0 0, .clear 0 2 0, .clear 0 0 2, .vertex2f 16384 0,
      .vertex2f 0 16384, .vertex2ii 512 0 0 0, .vertex2ii 0 512 0 0, .vertex2ii 0 0 32 0, .vertex2ii 0 0 0 128,
      .cmdText 32768 0 0 0, .cmdText 0 32768 0 0, .cmdText 0 0 65536 0, .cmdText 0 0 0 65536,
      .cmdButton 32768 0 0 0 0 0, .cmdButton 0 32768 0 0 0 0, .cmdButton 0 0 65536 0 0 0,
      .cmdButton 0 0 0 65536 0 0, .cmdButton 0 0 0 0 65536 0, .cmdButton 0 0 0 0 0 65536,
      .cmdSpinner 32768 0 0 0, .cmdSpinner 0 32768 0 0, .cmdSpinner 0 0 65536 0, .cmdSpinner 0 0 0 65536] : List Instr).all (fun i => !i.wellFormed) = true := by decide

/-- Each field one below its range, the others 0: refused. -/
theorem test_wellFormed_refuses_below_1 :
    ([
      .bitmapSource (-1), .clearColorRgb (-1) 0 0, .clearColorRgb 0 (-1) 0, .clearColorRgb 0 0 (-1), .tag (-1),
      .colorRgb (-1) 0 0, .colorRgb 0 (-1) 0, .colorRgb 0 0 (-1), .bitmapHandle (-1), .cell (-1),
      .bitmapLayout (-1) 0 0, .bitmapLayout 0 (-1) 0, .bitmapLayout 0 0 (-1), .bitmapSize (-1) 0 0 0 0,
      .bitmapSize 0 (-1) 0 0 0, .bitmapSize 0 0 (-1) 0 0, .bitmapSize 0 0 0 (-1) 0, .bitmapSize 0 0 0 0 (-1),
      .alphaFunc (-1) 0, .alphaFunc 0 (-1), .stencilFunc (-1) 0 0, .stencilFunc 0 (-1) 0,
      .stencilFunc 0 0 (-1), .blendFunc (-1) 0, .blendFunc 0 (-1), .stencilOp (-1) 0, .stencilOp 0 (-1),
      .pointSize (-1), .lineWidth (-1), .clearColorA (-1), .colorA (-1), .clearStencil (-1), .clearTag (-1),
      .stencilMask (-1), .tagMask (-1), .bitmapTransformA (-65537), .bitmapTransformB (-65537),
      .bitmapTransformC (-8388609), .bitmapTransformD (-65537), .bitmapTransformE (-65537)] : List Instr).all (fun i => !i.wellFormed) = true := by decide

/-- Each field one below its range, the others 0: refused. -/
theorem test_wellFormed_refuses_below_2 :
    ([
      .bitmapTransformF (-8388609), .scissorXy (-1) 0, .scissorXy 0 (-1), .scissorSize (-1) 0,
      .scissorSize 0 (-1), .call (-1), .jump (-1), .beginPrim (-1), .colorMask (-1) 0 0 0,
      .colorMask 0 (-1) 0 0, .colorMask 0 0 (-1) 0, .colorMask 0 0 0 (-1), .macroWord (-1), .clear (-1) 0 0,
      .clear 0 (-1) 0, .clear 0 0 (-1), .vertex2f (-16385) 0, .vertex2f 0 (-16385), .vertex2ii (-1) 0 0 0,
      .vertex2ii 0 (-1) 0 0, .vertex2ii 0 0 (-1) 0, .vertex2ii 0 0 0 (-1), .cmdText (-32769) 0 0 0,
      .cmdText 0 (-32769) 0 0, .cmdText 0 0 (-1) 0, .cmdText 0 0 0 (-1), .cmdButton (-32769) 0 0 0 0 0,
      .cmdButton 0 (-32769) 0 0 0 0, .cmdButton 0 0 (-1) 0 0 0, .cmdButton 0 0 0 (-1) 0 0,
      .cmdButton 0 0 0 0 (-1) 0, .cmdButton 0 0 0 0 0 (-1), .cmdSpinner (-32769) 0 0 0,
      .cmdSpinner 0 (-32769) 0 0, .cmdSpinner 0 0 (-1) 0, .cmdSpinner 0 0 0 (-1)] : List Instr).all (fun i => !i.wellFormed) = true := by decide

/-- The block's own operations: a word of 33 bits, a byte of 9, no header word, a header word of 33 bits, a string byte of
9, each coefficient of 33 bits. -/
theorem test_wellFormed_refuses_block :
    ([
      .writeWord 4294967296, .writeWord (-1), .writeBuffer [0, 256], .writeBuffer [-1], .writeStringCmd [] [],
      .writeStringCmd [4294967296] [], .writeStringCmd [0] [256], .setTouchTransform 4294967296 0 0 0 0 0,
      .setTouchTransform 0 4294967296 0 0 0 0, .setTouchTransform 0 0 4294967296 0 0 0,
      .setTouchTransform 0 0 0 4294967296 0 0, .setTouchTransform 0 0 0 0 4294967296 0,
      .setTouchTransform 0 0 0 0 0 4294967296] : List Instr).all (fun i => !i.wellFormed) = true := by decide

/-- The greatest operands of each encoder and of the block's operations are accepted. -/
theorem test_wellFormed_accepts :
    ([
      .bitmapSource 1048575, .clearColorRgb 255 255 255, .tag 255, .colorRgb 255 255 255, .bitmapHandle 31,
      .cell 127, .bitmapLayout 31 1023 511, .bitmapSize 1 1 1 511 511, .alphaFunc 7 255,
      .stencilFunc 15 255 255, .blendFunc 7 7, .stencilOp 7 7, .pointSize 8191, .lineWidth 4095,
      .clearColorA 255, .colorA 255, .clearStencil 255, .clearTag 255, .stencilMask 255, .tagMask 1,
      .bitmapTransformA 65535, .bitmapTransformB 65535, .bitmapTransformC 8388607, .bitmapTransformD 65535,
      .bitmapTransformE 65535, .bitmapTransformF 8388607, .scissorXy 511 511, .scissorSize 1023 1023,
      .call 65535, .jump 65535, .beginPrim 15, .colorMask 1 1 1 1, .macroWord 1, .clear 1 1 1,
      .vertex2f 16383 16383, .vertex2ii 511 511 31 127, .cmdText 32767 32767 65535 65535,
      .cmdButton 32767 32767 65535 65535 65535 65535, .cmdSpinner 32767 32767 65535 65535,
      .writeWord 4294967295, .writeBuffer [255], .writeStringCmd [4294967295] [255],
      .setTouchTransform 4294967295 0 0 0 0 4294967295] : List Instr).all (fun i => i.wellFormed) = true := by decide

/-! ### Decoding: words written out from the encodings (L2-ENC, L2-COP) and requests (R120) -/

/-- L2-ENC-1 to L2-ENC-22: each word decodes to its operation. -/
theorem test_decode_words_1 :
    decodeCommand [0x00000000] = .ok (.display, []) ∧
    decodeCommand [0x01001234] = .ok (.bitmapSource 4660, []) ∧
    decodeCommand [0x02112233] = .ok (.clearColorRgb 17 34 51, []) ∧
    decodeCommand [0x03000005] = .ok (.tag 5, []) ∧
    decodeCommand [0x04FF8000] = .ok (.colorRgb 255 128 0, []) ∧
    decodeCommand [0x0500001F] = .ok (.bitmapHandle 31, []) ∧
    decodeCommand [0x0600007F] = .ok (.cell 127, []) ∧
    decodeCommand [0x073F8110] = .ok (.bitmapLayout 7 960 272, []) ∧
    decodeCommand [0x0817C110] = .ok (.bitmapSize 1 0 1 480 272, []) ∧
    decodeCommand [0x09000580] = .ok (.alphaFunc 5 128, []) ∧
    decodeCommand [0x0A0701FF] = .ok (.stencilFunc 7 1 255, []) ∧
    decodeCommand [0x0B000014] = .ok (.blendFunc 2 4, []) :=
  ⟨rfl, rfl, rfl, rfl, rfl, rfl, rfl, rfl, rfl, rfl, rfl, rfl⟩

/-- L2-ENC-24 to L2-ENC-46: each word decodes to its operation. -/
theorem test_decode_words_2 :
    decodeCommand [0x0C00000B] = .ok (.stencilOp 1 3, []) ∧
    decodeCommand [0x0D000140] = .ok (.pointSize 320, []) ∧
    decodeCommand [0x0E000010] = .ok (.lineWidth 16, []) ∧
    decodeCommand [0x0F000080] = .ok (.clearColorA 128, []) ∧
    decodeCommand [0x100000FF] = .ok (.colorA 255, []) ∧
    decodeCommand [0x11000001] = .ok (.clearStencil 1, []) ∧
    decodeCommand [0x12000000] = .ok (.clearTag 0, []) ∧
    decodeCommand [0x130000FF] = .ok (.stencilMask 255, []) ∧
    decodeCommand [0x14000001] = .ok (.tagMask 1, []) ∧
    decodeCommand [0x15000100] = .ok (.bitmapTransformA 256, []) ∧
    decodeCommand [0x16000000] = .ok (.bitmapTransformB 0, []) ∧
    decodeCommand [0x17000100] = .ok (.bitmapTransformC 256, []) :=
  ⟨rfl, rfl, rfl, rfl, rfl, rfl, rfl, rfl, rfl, rfl, rfl, rfl⟩

/-- L2-ENC-48 to L2-ENC-68: each word decodes to its operation. -/
theorem test_decode_words_3 :
    decodeCommand [0x18000000] = .ok (.bitmapTransformD 0, []) ∧
    decodeCommand [0x19000100] = .ok (.bitmapTransformE 256, []) ∧
    decodeCommand [0x1A000000] = .ok (.bitmapTransformF 0, []) ∧
    decodeCommand [0x1B001414] = .ok (.scissorXy 10 20, []) ∧
    decodeCommand [0x1C078110] = .ok (.scissorSize 480 272, []) ∧
    decodeCommand [0x1D000040] = .ok (.call 64, []) ∧
    decodeCommand [0x1E000100] = .ok (.jump 256, []) ∧
    decodeCommand [0x1F000002] = .ok (.beginPrim 2, []) ∧
    decodeCommand [0x2000000F] = .ok (.colorMask 1 1 1 1, []) ∧
    decodeCommand [0x21000000] = .ok (.endPrim, []) ∧
    decodeCommand [0x22000000] = .ok (.saveContext, []) ∧
    decodeCommand [0x23000000] = .ok (.restoreContext, []) :=
  ⟨rfl, rfl, rfl, rfl, rfl, rfl, rfl, rfl, rfl, rfl, rfl, rfl⟩

/-- L2-ENC-69 to L2-COP-9: each word decodes to its operation. -/
theorem test_decode_words_4 :
    decodeCommand [0x24000000] = .ok (.returnList, []) ∧
    decodeCommand [0x25000001] = .ok (.macroWord 1, []) ∧
    decodeCommand [0x26000007] = .ok (.clear 1 1 1, []) ∧
    decodeCommand [0x40507FF0] = .ok (.vertex2f 160 (-16), []) ∧
    decodeCommand [0xBFFFFFFF] = .ok (.vertex2ii 511 511 31 127, []) ∧
    decodeCommand [0xFFFFFF00] = .ok (.cmdDlstart, []) ∧
    decodeCommand [0xFFFFFF01] = .ok (.cmdSwap, []) ∧
    decodeCommand [0xFFFFFF15] = .ok (.cmdCalibrate, []) ∧
    decodeCommand [0xFFFFFF0C, 0x0014000A, 0x0000001A] = .ok (.cmdText 10 20 26 0, []) ∧
    decodeCommand [0xFFFFFF0D, 0x000A000A, 0x001E008C, 0x0100001C] = .ok (.cmdButton 10 10 140 30 28 256, []) ∧
    decodeCommand [0xFFFFFF16, 0x008800F0, 0x00010000] = .ok (.cmdSpinner 240 136 0 1, []) :=
  ⟨rfl, rfl, rfl, rfl, rfl, rfl, rfl, rfl, rfl, rfl, rfl⟩

/-- L2-ENC-3 to L2-ENC-41: operands beyond their fields are masked. -/
theorem test_encode_masks_1 :
    ([
      .bitmapSource 305419896, .clearColorRgb 511 (-1) 256, .tag 510, .colorRgb 256 257 258, .bitmapHandle 33,
      .cell 128, .bitmapLayout 63 2047 1023, .bitmapSize 2 3 2 512 512, .alphaFunc 8 256,
      .stencilFunc 23 511 256, .blendFunc 9 9, .stencilOp 8 15, .pointSize 8193, .lineWidth 4112,
      .clearColorA 511, .colorA (-1), .clearStencil 257, .clearTag 511, .stencilMask 256, .tagMask 2] : List Instr).map encodeWords =
    [
      some [0x01045678], some [0x02FFFF00], some [0x030000FE], some [0x04000102], some [0x05000001],
      some [0x06000000], some [0x07FFFFFF], some [0x08080000], some [0x09000000], some [0x0A07FF00],
      some [0x0B000009], some [0x0C000007], some [0x0D000001], some [0x0E000010], some [0x0F0000FF],
      some [0x100000FF], some [0x11000001], some [0x120000FF], some [0x13000000], some [0x14000000]] := by decide

/-- L2-ENC-49 to L2-COP-10: operands beyond their fields are masked. -/
theorem test_encode_masks_2 :
    ([
      .bitmapTransformD 131072, .scissorXy 512 (-1), .scissorSize 1024 1023, .call 65600, .jump (-4),
      .beginPrim 25, .colorMask 2 1 0 3, .macroWord 2, .clear 2 3 4, .vertex2f 16384 (-16385),
      .vertex2ii 512 513 32 128, .cmdText (-1) 0 65552 1536, .cmdButton 0 (-2) 65536 50 27 0,
      .cmdSpinner (-16) 300 3 (-1)] : List Instr).map encodeWords =
    [
      some [0x18000000], some [0x1B0001FF], some [0x1C0003FF], some [0x1D000040], some [0x1E00FFFC],
      some [0x1F000009], some [0x20000005], some [0x25000000], some [0x26000002], some [0x60003FFF],
      some [0x80001000], some [0xFFFFFF0C, 0x0000FFFF, 0x06000010],
      some [0xFFFFFF0D, 0xFFFE0000, 0x00320000, 0x0000001B], some [0xFFFFFF16, 0x012CFFF0, 0xFFFF0003]] := by decide

/-- OPSEL and operands of R120. -/
theorem test_decode_requests_1 :
    decode ⟨0x00, []⟩ = .ok (.display) ∧
    decode ⟨0x01, [.int 4660]⟩ = .ok (.bitmapSource 4660) ∧
    decode ⟨0x02, [.int 17, .int 34, .int 51]⟩ = .ok (.clearColorRgb 17 34 51) ∧
    decode ⟨0x03, [.int 5]⟩ = .ok (.tag 5) ∧
    decode ⟨0x04, [.int 255, .int 128, .int 0]⟩ = .ok (.colorRgb 255 128 0) ∧
    decode ⟨0x05, [.int 31]⟩ = .ok (.bitmapHandle 31) ∧
    decode ⟨0x06, [.int 127]⟩ = .ok (.cell 127) ∧
    decode ⟨0x07, [.int 7, .int 960, .int 272]⟩ = .ok (.bitmapLayout 7 960 272) ∧
    decode ⟨0x08, [.int 1, .int 0, .int 1, .int 480, .int 272]⟩ = .ok (.bitmapSize 1 0 1 480 272) ∧
    decode ⟨0x09, [.int 5, .int 128]⟩ = .ok (.alphaFunc 5 128) ∧
    decode ⟨0x0A, [.int 7, .int 1, .int 255]⟩ = .ok (.stencilFunc 7 1 255) ∧
    decode ⟨0x0B, [.int 2, .int 4]⟩ = .ok (.blendFunc 2 4) ∧
    decode ⟨0x0C, [.int 1, .int 3]⟩ = .ok (.stencilOp 1 3) ∧
    decode ⟨0x0D, [.int 320]⟩ = .ok (.pointSize 320) ∧
    decode ⟨0x0E, [.int 16]⟩ = .ok (.lineWidth 16) ∧
    decode ⟨0x0F, [.int 128]⟩ = .ok (.clearColorA 128) ∧
    decode ⟨0x10, [.int 255]⟩ = .ok (.colorA 255) ∧
    decode ⟨0x11, [.int 1]⟩ = .ok (.clearStencil 1) ∧
    decode ⟨0x12, [.int 0]⟩ = .ok (.clearTag 0) ∧
    decode ⟨0x13, [.int 255]⟩ = .ok (.stencilMask 255) :=
  ⟨rfl, rfl, rfl, rfl, rfl, rfl, rfl, rfl, rfl, rfl, rfl, rfl, rfl, rfl, rfl, rfl, rfl, rfl, rfl, rfl⟩

/-- OPSEL and operands of R120. -/
theorem test_decode_requests_2 :
    decode ⟨0x14, [.int 1]⟩ = .ok (.tagMask 1) ∧
    decode ⟨0x15, [.int 256]⟩ = .ok (.bitmapTransformA 256) ∧
    decode ⟨0x16, [.int 0]⟩ = .ok (.bitmapTransformB 0) ∧
    decode ⟨0x17, [.int 256]⟩ = .ok (.bitmapTransformC 256) ∧
    decode ⟨0x18, [.int 0]⟩ = .ok (.bitmapTransformD 0) ∧
    decode ⟨0x19, [.int 256]⟩ = .ok (.bitmapTransformE 256) ∧
    decode ⟨0x1A, [.int 0]⟩ = .ok (.bitmapTransformF 0) ∧
    decode ⟨0x1B, [.int 10, .int 20]⟩ = .ok (.scissorXy 10 20) ∧
    decode ⟨0x1C, [.int 480, .int 272]⟩ = .ok (.scissorSize 480 272) ∧
    decode ⟨0x1D, [.int 64]⟩ = .ok (.call 64) ∧
    decode ⟨0x1E, [.int 256]⟩ = .ok (.jump 256) ∧
    decode ⟨0x1F, [.int 2]⟩ = .ok (.beginPrim 2) ∧
    decode ⟨0x20, [.int 1, .int 1, .int 1, .int 1]⟩ = .ok (.colorMask 1 1 1 1) ∧
    decode ⟨0x21, []⟩ = .ok (.endPrim) ∧
    decode ⟨0x22, []⟩ = .ok (.saveContext) ∧
    decode ⟨0x23, []⟩ = .ok (.restoreContext) ∧
    decode ⟨0x24, []⟩ = .ok (.returnList) ∧
    decode ⟨0x25, [.int 1]⟩ = .ok (.macroWord 1) ∧
    decode ⟨0x26, [.int 1, .int 1, .int 1]⟩ = .ok (.clear 1 1 1) ∧
    decode ⟨0x40, [.int 160, .int (-16)]⟩ = .ok (.vertex2f 160 (-16)) :=
  ⟨rfl, rfl, rfl, rfl, rfl, rfl, rfl, rfl, rfl, rfl, rfl, rfl, rfl, rfl, rfl, rfl, rfl, rfl, rfl, rfl⟩

/-- OPSEL and operands of R120. -/
theorem test_decode_requests_3 :
    decode ⟨0x41, [.int 511, .int 511, .int 31, .int 127]⟩ = .ok (.vertex2ii 511 511 31 127) ∧
    decode ⟨0x50, []⟩ = .ok (.cmdDlstart) ∧
    decode ⟨0x51, []⟩ = .ok (.cmdSwap) ∧
    decode ⟨0x52, []⟩ = .ok (.cmdCalibrate) ∧
    decode ⟨0x53, [.int 10, .int 20, .int 26, .int 0]⟩ = .ok (.cmdText 10 20 26 0) ∧
    decode ⟨0x54, [.int 10, .int 10, .int 140, .int 30, .int 28, .int 256]⟩ = .ok (.cmdButton 10 10 140 30 28 256) ∧
    decode ⟨0x55, [.int 240, .int 136, .int 0, .int 1]⟩ = .ok (.cmdSpinner 240 136 0 1) ∧
    decode ⟨0x60, [.int 5]⟩ = .ok (.writeWord 5) ∧
    decode ⟨0x61, [.bytes [1, 2]]⟩ = .ok (.writeBuffer [1, 2]) ∧
    decode ⟨0x62, [.words [3], .bytes [4]]⟩ = .ok (.writeStringCmd [3] [4]) ∧
    decode ⟨0x63, []⟩ = .ok (.fifoEmpty) ∧
    decode ⟨0x70, []⟩ = .ok (.initForced) ∧
    decode ⟨0x71, []⟩ = .ok (.initProbe) ∧
    decode ⟨0x80, []⟩ = .ok (.getTouchRawXy) ∧
    decode ⟨0x81, []⟩ = .ok (.getTouchScreenXy) ∧
    decode ⟨0x82, []⟩ = .ok (.getTouchTag) ∧
    decode ⟨0x83, []⟩ = .ok (.getTouchTransform) ∧
    decode ⟨0x84, [.int 1, .int 2, .int 3, .int 4, .int 5, .int 6]⟩ = .ok (.setTouchTransform 1 2 3 4 5 6) ∧
    decode ⟨0x90, []⟩ = .ok (.buttonPoll) ∧
    decode ⟨0x91, []⟩ = .ok (.discardActiveButton) :=
  ⟨rfl, rfl, rfl, rfl, rfl, rfl, rfl, rfl, rfl, rfl, rfl, rfl, rfl, rfl, rfl, rfl, rfl, rfl, rfl, rfl⟩

/-- L2-REQ-1 to L2-REQ-5: an unassigned code, and operands that do not match. -/
theorem test_decode_refuses_requests :
    [decode ⟨0x27, []⟩, decode ⟨0x42, []⟩, decode ⟨0xFF, []⟩, decode ⟨0x02, [.int 1, .int 2]⟩,
      decode ⟨0x60, [.bytes [1]]⟩, decode ⟨0x62, [.words [], .bytes []]⟩].map Except.toOption =
    [none, none, none, none, none, none] := by decide

/-- R110 and D40: a reserved opcode, an unknown token, a set bit outside the fields, a token without its header. -/
theorem test_decode_refuses_words :
    [decodeCommand [0x27000000], decodeCommand [0xC0000000], decodeCommand [0xFFFFFF02], decodeCommand [0x03000100],
      decodeCommand [0xFFFFFF0C, 0], decodeCommand []].map Except.toOption =
    [none, none, none, none, none, none] := by decide

/-- The table's numbering: a 32-bit row and an 8-bit row (R305's operands of zeros, log 13). -/
theorem test_decodeTableWord :
    decodeTableWord 32 0x02112233 = some (.clearColorRgb 17 34 51) ∧
    decodeTableWord 32 0xFFFFFF0D = some (.cmdButton 0 0 0 0 0 0) ∧
    decodeTableWord 8 0x62 = some (.writeStringCmd [0] []) := ⟨by decide, by decide, by decide⟩

/-- withFetchWord places the request that the next step runs. -/
theorem test_withFetchWord :
    (match step ((start [] []).withFetchWord 32 0x02112233) with
      | .next t => t.response
      | _ => none) = some ⟨.ok, .word 0x02112233⟩ := by decide
/-! ### One operation each -/

/-- L2-FWR-2: a word appended at the ring's end. -/
theorem test_writeWord_wraps :
    after (fun t => (t.response, t.cursor, t.trace)) (.writeWord 0x26000007) (ready 4092 (quiet 5) []) =
      some (some ⟨.ok, .none⟩, 0,
        [.write 0x108FFC .w8 0x07 true, .write 0x108FFD .w8 0 true, .write 0x108FFE .w8 0 true,
         .write 0x108FFF .w8 0x26 true, .write 0x1024E8 .w32 0 true]) := by decide

/-- L2-FWR-9: the publish fails, the cursor stays advanced. -/
theorem test_writeWord_publish_fails :
    after (fun t => (t.response, t.cursor)) (.writeWord 0x04FF8000) (ready 16 (failAt 4) []) =
      some (some ⟨.fail .transport, .none⟩, 20) := by decide

/-- L2-FWR-6: six bytes across the ring's end; the padding is not written. -/
theorem test_writeBuffer_wraps :
    after (fun t => (t.response, t.cursor, t.mem)) (.writeBuffer [1, 2, 3, 4, 5, 6]) (ready 4092 (quiet 7) []) =
      some (some ⟨.ok, .none⟩, 4,
        [(0x1024E8, 4), (0x108000, 5), (0x108001, 6), (0x108FFC, 1), (0x108FFD, 2), (0x108FFE, 3), (0x108FFF, 4)]) := by
  decide

/-- L2-FWR-4: an empty buffer publishes the cursor. -/
theorem test_writeBuffer_empty :
    after (fun t => (t.response, t.cursor, t.trace)) (.writeBuffer []) (ready 40 (quiet 1) []) =
      some (some ⟨.ok, .none⟩, 40, [.write 0x1024E8 .w32 40 true]) := by decide

/-- R66: with another register map the publish goes where that map has REG_CMD_WRITE. -/
theorem test_writeWord_other_map :
    after (fun t => t.trace.getLast?) (.writeWord 0)
      { ready 0 (quiet 5) [] with given := some { params with regmap := { defaultRegMap with cmdWrite := 0x1024EC } } } =
      some (some (.write 0x1024EC .w32 4 true)) := by decide

/-- L2-FWR-14: the terminator fills the word. -/
theorem test_writeStringCmd :
    after (fun t => (t.response, t.cursor, t.mem)) (.writeStringCmd [0xFFFFFF0C] [0x61, 0x62, 0x63]) (ready 0 (quiet 10) []) =
      some (some ⟨.ok, .none⟩, 8,
        [(0x1024E8, 8), (0x108000, 0x0C), (0x108001, 0xFF), (0x108002, 0xFF), (0x108003, 0xFF), (0x108004, 0x61),
         (0x108005, 0x62), (0x108006, 0x63)]) := by decide

/-- L2-FWR-16: the first byte of the second header word fails; the first word is written and published. -/
theorem test_writeStringCmd_fails :
    after (fun t => (t.response, t.cursor, t.trace)) (.writeStringCmd [0xFFFFFF0C, 0x0014000A] [0x41])
      (ready 0 (failAt 5) []) =
      some (some ⟨.fail .transport, .none⟩, 4,
        [.write 0x108000 .w8 0x0C true, .write 0x108001 .w8 0xFF true, .write 0x108002 .w8 0xFF true,
         .write 0x108003 .w8 0xFF true, .write 0x1024E8 .w32 4 true, .write 0x108004 .w8 0x0A false]) := by decide

/-- L2-FWR-17 and L2-FWR-19: the whole 32-bit read pointer is compared. -/
theorem test_fifoEmpty :
    after State.response .fifoEmpty (ready 40 (quiet 1) [(0x1024E4, 40)]) = some (some ⟨.ok, .empty true⟩) ∧
    after State.response .fifoEmpty (ready 40 (quiet 1) [(0x1024E4, 0x28), (0x1024E5, 0x10)]) =
      some (some ⟨.ok, .empty false⟩) := ⟨by decide, by decide⟩

/-- L2-FWR-20 and L2-FWR-11: a failed read, and no session. -/
theorem test_fifoEmpty_fails :
    after State.response .fifoEmpty (ready 40 (failAt 0) []) = some (some ⟨.fail .transport, .empty false⟩) ∧
    after State.response .fifoEmpty (start (quiet 1) []) = some (some ⟨.refused, .none⟩) := ⟨by decide, by decide⟩

/-- L2-INIT-1: the whole trace. -/
theorem test_initForced :
    after (fun t => (t.response, t.cursor, t.initialized, t.initState, t.trace)) .initForced (start (quiet 28) idByte) =
      some (some ⟨.ok, .none⟩, 0, true, .verified,
        [.hostCommand 0x68 true, .sleep 3, .hostCommand 0x00 true, .sleep 2, .read 0x102400 .w8 (some 0x7C),
         .hostCommand 0x44 true, .sleep 1, .write 0x102428 .w16 0x224 true, .write 0x10242C .w16 0x2B true,
         .write 0x102434 .w16 0 true, .write 0x102438 .w16 0x29 true, .write 0x102430 .w16 0x1E0 true,
         .write 0x10243C .w16 0x124 true, .write 0x102440 .w16 0xC true, .write 0x102448 .w16 0 true,
         .write 0x10244C .w16 0xA true, .write 0x102444 .w16 0x110 true, .write 0x102468 .w8 1 true,
         .write 0x102460 .w8 0 true, .write 0x102464 .w8 1 true, .write 0x102480 .w8 0 true,
         .write 0x100000 .w32 0x2000000 true, .write 0x100004 .w32 0x26000007 true, .write 0x100008 .w32 0 true,
         .write 0x102450 .w8 2 true, .write 0x10248C .w8 0x80 true, .write 0x102490 .w8 0x80 true,
         .write 0x10246C .w8 5 true, .read 0x102490 .w8 (some 0x80), .read 0x10246C .w8 (some 5),
         .write 0x102480 .w8 0xFF true]) := by decide

/-- L2-INIT-8: the first timing write fails, the cursor stays. -/
theorem test_initForced_fails :
    after (fun t => (t.response, t.cursor, t.initState, t.trace.length)) .initForced
      { start (failAt 4) idByte with cursor := 64 } = some (some ⟨.fail .transport, .none⟩, 64, .failed, 8) := by decide

/-- L2-INIT-12: the running display's write pointer is adopted. -/
theorem test_initProbe_adopts :
    after (fun t => (t.response, t.cursor, t.initialized, t.initState)) .initProbe (start (quiet 3) running) =
      some (some ⟨.ok, .path .adopted⟩, 288, true, .verified) := by decide

/-- L2-INIT-13: an inconclusive probe, then the 28 transactions of the forced path. -/
theorem test_initProbe_forces :
    after (fun t => (t.response, t.cursor, t.initState, t.tick)) .initProbe (start (quiet 29) idByte) =
      some (some ⟨.ok, .path .forced⟩, 0, .verified, 29) := by decide

/-- L2-TDEC-1 and L2-TDEC-2. -/
theorem test_getTouchRawXy :
    after State.response .getTouchRawXy
      (start (quiet 1) [(0x102508, 0x64), (0x10250A, 0xF4), (0x10250B, 0x01)]) = some (some ⟨.ok, .sample true 500 100⟩) ∧
    after State.response .getTouchRawXy
      (start (quiet 1) [(0x102508, 0xFF), (0x102509, 0xFF), (0x10250A, 0xFF), (0x10250B, 0xFF)]) =
      some (some ⟨.ok, .sample false 0 0⟩) := ⟨by decide, by decide⟩

/-- L2-TDEC-8 and L2-TDEC-9. -/
theorem test_getTouchScreenXy :
    after State.response .getTouchScreenXy (start (quiet 1) [(0x102511, 0x80), (0x102513, 0x80)]) =
      some (some ⟨.ok, .sample false 0 0⟩) ∧
    after State.response .getTouchScreenXy (start (quiet 1) [(0x102513, 0x80)]) =
      some (some ⟨.ok, .sample true 32768 0⟩) := ⟨by decide, by decide⟩

/-- L2-TDEC-13 and L2-TDEC-14. -/
theorem test_getTouchTag :
    after State.response .getTouchTag (start (quiet 1) [(0x102518, 255)]) = some (some ⟨.ok, .tag 255⟩) ∧
    after State.response .getTouchTag (start (failAt 0) [(0x102518, 255)]) = some (some ⟨.ok, .tag 0⟩) :=
  ⟨by decide, by decide⟩

/-- L2-TDEC-16, and the byte order of the first and last coefficient. -/
theorem test_getTouchTransform :
    after State.response .getTouchTransform (start (failAt 2) []) = some (some ⟨.fail .transport, .none⟩) ∧
    after State.response .getTouchTransform
      (start (quiet 6) [(0x10251C, 0xA3), (0x10251D, 0xF7), (0x102531, 0xB0), (0x102532, 0xF9), (0x102533, 0xFF)]) =
      some (some ⟨.ok, .coeff [0x0000F7A3, 0, 0, 0, 0, 0xFFF9B000]⟩) := ⟨by decide, by decide⟩

/-- L2-TDEC-17: a negative operand as its 32-bit pattern. -/
theorem test_setTouchTransform :
    after (fun t => (t.response, t.mem)) (.setTouchTransform 0x10000 0 (-5) 0 0x10000 0) (start (quiet 6) []) =
      some (some ⟨.ok, .none⟩,
        [(0x10251E, 1), (0x102524, 0xFB), (0x102525, 0xFF), (0x102526, 0xFF), (0x102527, 0xFF), (0x10252E, 1)]) := by
  decide

/-- L2-DEB-1 to L2-DEB-12: the table's cells, with L2-DEB-14 and L2-DEB-16's second poll. -/
theorem test_buttonPoll :
    [(DebState.noButton, (5 : Byte), (5 : Byte)), (.noButton, 4, 5), (.noButton, 5, 0), (.debounce, 5, 5), (.debounce, 4, 5),
      (.debounce, 5, 0), (.detected, 5, 5), (.detected, 4, 5), (.detected, 5, 0), (.discard, 5, 5), (.discard, 4, 5),
      (.discard, 5, 0), (.debounce, 9, 255), (.debounce, 254, 254)].map (fun c =>
      after (fun t => (eventOf t, t.debState, t.lastTag)) .buttonPoll
        { start (quiet 1) [(0x102518, c.2.2)] with debState := c.1, lastTag := c.2.1 }) =
    [some (0, .debounce, 5), some (0, .debounce, 5), some (0, .noButton, 0), some (5, .detected, 5),
      some (0, .debounce, 5), some (0, .noButton, 0), some (0, .detected, 5), some (254, .debounce, 5),
      some (254, .noButton, 0), some (0, .discard, 5), some (0, .discard, 5), some (0, .noButton, 0),
      some (0, .noButton, 255), some (254, .detected, 254)] := by decide

/-- L2-DEB-15: a failed read acts as tag 0. -/
theorem test_buttonPoll_fails :
    after (fun t => (eventOf t, t.debState, t.lastTag)) .buttonPoll
      { start (failAt 0) [(0x102518, 9)] with debState := .detected, lastTag := 9 } = some (254, .noButton, 0) := by decide

/-- R396, from each state. -/
theorem test_discardActiveButton :
    [DebState.noButton, .debounce, .detected, .discard].map (fun d =>
      after (fun t => (t.response, t.debState, t.lastTag)) .discardActiveButton
        { start [] [] with debState := d, lastTag := 5 }) =
    [some (some ⟨.ok, .none⟩, .noButton, 5), some (some ⟨.ok, .none⟩, .discard, 5),
      some (some ⟨.ok, .none⟩, .discard, 5), some (some ⟨.ok, .none⟩, .discard, 5)] := by decide

/-- R302 on memory: bytes equal to what an unlisted address reads as are removed, the rest stand in order. -/
theorem test_memory_canonical :
    Memory.store [(5, 1), (7, 2)] 4 [9, 0, 8] = [(4, 9), (6, 8), (7, 2)] := by decide

/-! ### Witnesses: states and operands that meet the hypotheses of a statement, clause by clause -/

/-- EncoderOperationsEmitTheEncodedWords, both branches. -/
theorem witness_encodeWords :
    encodeWords (.tag 255) = some [0x030000FF] ∧ encodeWords (.cmdText 0 0 0 0) = some [0xFFFFFF0C, 0, 0] :=
  ⟨by decide, by decide⟩

/-- DecodingAnEncodedCommandGivesItBack, with an operand beyond its field and one at its greatest value. -/
theorem witness_decoding :
    encodeWords (.vertex2f 16384 0) = some [0x60000000] ∧
    encodeWords (.vertex2f 16383 (-16384)) = some [0x5FFFC000] ∧ (Instr.vertex2f 16383 (-16384)).WellFormed :=
  ⟨by decide, by decide, by decide⟩

/-- EveryDecodedCommandIsAnEncodedOne. -/
theorem witness_decoded : decodeCommand [0x030000FF, 0] = .ok (.tag 255, [0]) := rfl

/-- RequestsAndOperationsCorrespond. -/
theorem witness_requests :
    (Instr.writeStringCmd [4294967295] [255]).WellFormed ∧ decode ⟨0x60, [.int (-1)]⟩ = .ok (.writeWord (-1)) :=
  ⟨by decide, rfl⟩

/-- UnassignedCodesSpellNoOperation: both ends of each range. -/
theorem witness_unassigned :
    [0x27, 0x3F, 0x42, 0x4F, 0x56, 0x5F, 0x64, 0x6F, 0x72, 0x7F, 0x85, 0x8F, 0x92, 0xFF].all (fun n =>
      (BitVec.ofNat 8 n).toNat == n &&
      (decide (0x27 ≤ n ∧ n ≤ 0x3F) || decide (0x42 ≤ n ∧ n ≤ 0x4F) || decide (0x56 ≤ n ∧ n ≤ 0x5F) ||
        decide (0x64 ≤ n ∧ n ≤ 0x6F) || decide (0x72 ≤ n ∧ n ≤ 0x7F) || decide (0x85 ≤ n ∧ n ≤ 0x8F) ||
        decide (0x92 ≤ n ∧ n ≤ 0xFF))) = true := by decide

/-- StepRunsTheDecodedRequest, both parts, and StepAnswersWhatItCannotRun. -/
theorem witness_step :
    (∃ s : State, s.requests = [⟨0x03, [.int 5]⟩] ∧ decode ⟨0x03, [.int 5]⟩ = .ok (.tag 5)) ∧
    (∃ s : State, (Instr.tag 5).WellFormed ∧ s.requests = encode (.tag 5) :: []) ∧
    (∃ (s : State) (e : DecodeError), s.requests = [⟨0x27, []⟩] ∧ decode ⟨0x27, []⟩ = .error e) ∧
    State.reset.requests = [] :=
  ⟨⟨placeRequest ⟨0x03, [.int 5]⟩ State.reset, rfl, rfl⟩, ⟨placeRequest (encode (.tag 5)) State.reset, by decide, rfl⟩,
    ⟨placeRequest ⟨0x27, []⟩ State.reset, _, rfl, rfl⟩, rfl⟩

/-- The register map of the tests fits. -/
theorem regMapFits_params : RegMapFits params := by unfold RegMapFits; decide

/-- The invariant's decidable parts at a state of the tests. -/
theorem inv_of {s : State} (hp : s.params = params) (h : (decide (s.cursor.toNat % 4 = 0) &&
    (s.initialized == decide (s.initState = .verified)) && Memory.wf s.mem && s.trace.all (legalEvent s.params) &&
    decide (s.params.pclkDiv ≠ 0)) = true) : Inv s := by
  simp only [Bool.and_eq_true, decide_eq_true_eq, beq_iff_eq] at h
  exact ⟨h.1.1.1.1, by rw [SessionAgrees, h.1.1.1.2, decide_eq_true_eq], h.1.1.2, h.1.2, h.2, hp ▸ regMapFits_params⟩

/-- EveryStepKeepsTheInvariant and StepIssuesOnlyLegalAccesses. -/
theorem witness_invariant :
    ∃ s t : State, Inv s ∧ RegMapFits s.params ∧ step s = .next t ∧ t.cursor = 8 :=
  ⟨placeRequest (encode (.writeWord 7)) (ready 4 (quiet 5) idByte), _, inv_of rfl (by decide), regMapFits_params, rfl,
    by decide⟩

/-- RegistersChangeOnlyThroughTheirOperations: each clause's operation class, and a step that runs no operation. -/
theorem witness_registers :
    (∃ t, exec .fifoEmpty (ready 4 (quiet 1) []) = .next t ∧ writesCursor .fifoEmpty = false ∧
      initializes .fifoEmpty = false ∧ writesDebState .fifoEmpty = false ∧ writesLastTag .fifoEmpty = false) ∧
    (∃ t, step State.reset = .next t ∧ ∀ i r rest, State.reset.requests = r :: rest → decode r ≠ .ok i) :=
  ⟨⟨_, rfl, rfl, rfl, rfl, rfl⟩, ⟨_, rfl, fun _ _ _ h => nomatch h⟩⟩

/-- AFailureIsTheLastTransaction: a success, a transport failure and a verify failure. -/
theorem witness_failure :
    (∃ t es, exec .fifoEmpty (ready 4 (quiet 1) []) = .next t ∧ t.trace = (ready 4 (quiet 1) []).trace ++ es) ∧
    (∃ t es, exec (.writeWord 7) (ready 4 (failAt 2) []) = .next t ∧ t.trace = (ready 4 (failAt 2) []).trace ++ es ∧
      ∃ o, t.response = some ⟨.fail .transport, o⟩) ∧
    (∃ t es, exec .initForced (start (quiet 3) []) = .next t ∧ t.trace = (start (quiet 3) []).trace ++ es ∧
      ∃ o, t.response = some ⟨.fail .verify, o⟩) :=
  ⟨⟨_, _, rfl, rfl⟩, ⟨_, _, rfl, rfl, .none, by decide⟩, ⟨_, _, rfl, rfl, .none, by decide⟩⟩

/-- MemoryChangesOnlyByTheWritesIssued, at the byte before those stored. -/
theorem witness_memory :
    ∃ t es, exec (.writeBuffer [1]) (ready 4 (quiet 2) []) = .next t ∧ t.trace = (ready 4 (quiet 2) []).trace ++ es ∧
      (∀ k, k < (es.filter isTransaction).length → (envAt (ready 4 (quiet 2) []) k).chip = []) ∧
      es.any (stores 0x108003) = false ∧ RegMapFits (ready 4 (quiet 2) []).params :=
  ⟨_, [.write 0x108004 .w8 1 true, .write 0x1024E8 .w32 8 true], rfl, by decide, by decide, by decide, regMapFits_params⟩

/-- MemoryChangesOnlyByTheWritesIssued, where delays stand among the transactions: five events, three transactions. -/
theorem witness_memory_sleeps :
    ∃ t es, exec .initForced (start (quiet 3) []) = .next t ∧ t.trace = (start (quiet 3) []).trace ++ es ∧
      es.length = 5 ∧ (es.filter isTransaction).length = 3 ∧
      (∀ k, k < 3 → (envAt (start (quiet 3) []) k).chip = []) ∧ es.any (stores 0x102400) = false :=
  ⟨_, [.hostCommand 0x68 true, .sleep 3, .hostCommand 0x00 true, .sleep 2, .read 0x102400 .w8 (some 0)], rfl, by decide,
    by decide, by decide, by decide, by decide⟩

/-- ABusWriteStoresItsBytesLowFirst: the space's last word, a success and a failure. -/
theorem witness_busWrite :
    (0xFFFFFC : Addr).toNat + widthBytes .w32 ≤ 0x1000000 ∧ (envAt (start (quiet 1) []) 0).chip = [] ∧
    (envAt (start (quiet 1) []) 0).ok = true ∧ (envAt (start (failAt 0) []) 0).chip = [] ∧
    (envAt (start (failAt 0) []) 0).ok = false ∧ 3 < widthBytes .w32 ∧ 0xFFFFFB < (0xFFFFFC : Addr).toNat ∧
    (0xFFFFFC : Addr).toNat + widthBytes .w32 ≤ 0x1000000 := by decide

/-- WriteBufferAppendsAndPublishes and WriteBufferStoresItsBytesAndNothingElse: a buffer across the ring's end, its last
byte, and the addresses next to those stored. -/
theorem witness_writeBuffer :
    RegMapFits (ready 4092 (quiet 6) []).params ∧ (ready 4092 (quiet 6) []).initialized = true ∧ OkFor 6 (ready 4092 (quiet 6) []) ∧
    QuietFor 6 (ready 4092 (quiet 6) []) ∧
    (∃ t, exec (.writeBuffer [1, 2, 3, 4, 5]) (ready 4092 (quiet 6) []) = .next t) ∧ 5 ≤ 4 + 4096 ∧
    (∀ i, i < 5 → 0x108FFB ≠ 0x108000 + (4092 + i) % 4096) ∧ (0x108FFB < 0x1024E8 ∨ 0x1024EC ≤ 0x108FFB) :=
  ⟨regMapFits_params, rfl, by unfold OkFor; decide, by unfold QuietFor; decide, ⟨_, rfl⟩, by decide, by decide, by decide⟩

/-- The failures of an append, at its first byte, its last byte and its publish: WriteBufferStopsAtAFailedByte and
WriteBufferKeepsTheCursorAdvancedAfterAFailedPublish. -/
theorem witness_append_fails :
    (ready 4092 (failAt 0) []).initialized = true ∧ FailsAt 0 (ready 4092 (failAt 0) []) ∧
    FailsAt 4 (ready 4092 (failAt 4) []) ∧ FailsAt 5 (ready 4092 (failAt 5) []) :=
  ⟨rfl, by unfold FailsAt OkFor; decide, by unfold FailsAt OkFor; decide, by unfold FailsAt OkFor; decide⟩

/-- WriteWordAppendsFourBytesLowFirst, at the last aligned cursor. -/
theorem witness_writeWord :
    (ready 4092 (quiet 5) []).initialized = true ∧ (ready 4092 (quiet 5) []).cursor.toNat % 4 = 0 ∧
    OkFor 5 (ready 4092 (quiet 5) []) := ⟨rfl, by decide, by unfold OkFor; decide⟩

/-- WriteStringCmdAppendsHeaderThenString (one header word, the empty string) and WriteStringCmdStopsWhereItFails: the
first and last transaction of the header, the first and last of the string. -/
theorem witness_writeStringCmd :
    ([0xFFFFFF0C] : List Int) ≠ [] ∧ OkFor 7 (ready 8 (quiet 7) []) ∧ FailsAt 0 (ready 8 (failAt 0) []) ∧
    FailsAt 4 (ready 8 (failAt 4) []) ∧ FailsAt 5 (ready 8 (failAt 5) []) ∧ FailsAt 6 (ready 8 (failAt 6) []) ∧
    6 < 5 * ([0xFFFFFF0C] : List Int).length + ([] : List Int).length + 2 ∧ (ready 8 (failAt 6) []).initialized = true :=
  ⟨by decide, by unfold OkFor; decide, by unfold FailsAt OkFor; decide, by unfold FailsAt OkFor; decide,
    by unfold FailsAt OkFor; decide, by unfold FailsAt OkFor; decide, by decide, rfl⟩

/-- FifoEmptyComparesTheReadPointerWithTheCursor and FifoOperationsAreRefusedBeforeInitialization. -/
theorem witness_session : (ready 0 [] []).initialized = true ∧ State.reset.initialized = false := ⟨rfl, rfl⟩

/-- AppendsReachTheRingInTheCallersOrder: a word, then an empty buffer. -/
theorem witness_appends :
    [Instr.writeWord 7, .writeBuffer []].map appended = [fourBytes 7, []].map some ∧
    (placeRequest (encode (.writeWord 7)) (placeRequest (encode (.writeBuffer [])) (ready 0 (quiet 6) []))).requests =
      [Instr.writeWord 7, .writeBuffer []].map encode ++ [] ∧
    (ready 0 (quiet 6) []).initialized = true ∧
    OkFor (streamTransactions [fourBytes 7, []])
      (placeRequest (encode (.writeWord 7)) (placeRequest (encode (.writeBuffer [])) (ready 0 (quiet 6) []))) :=
  ⟨rfl, rfl, rfl, by unfold OkFor; decide⟩

/-- AnAppendThatFitsOverwritesNoPendingByte: the greatest append that fits behind a read pointer just past the cursor. -/
theorem witness_overrun :
    16 < 4096 ∧ NoOverrun 16 8 4 ∧
    ∃ t es v ok, exec (.writeBuffer [1, 2, 3, 4]) (ready 8 (quiet 5) []) = .next t ∧
      t.trace = (ready 8 (quiet 5) []).trace ++ es ∧ .write 0x10800B .w8 v ok ∈ es :=
  ⟨by decide, by unfold NoOverrun; decide,
    _, [.write 0x108008 .w8 1 true, .write 0x108009 .w8 2 true, .write 0x10800A .w8 3 true, .write 0x10800B .w8 4 true,
      .write 0x1024E8 .w32 12 true], 4, true, rfl, by decide, by decide⟩

/-- InitForcedVerifiesAnEchoingChip: the unmute write succeeding, and failing. -/
theorem witness_initForced :
    RegMapFits (start (quiet 28) idByte).params ∧ QuietFor (forcedTransactions params) (start (quiet 28) idByte) ∧
    (params.verifyId = true → Memory.get idByte 0x102400 = params.expectedId) ∧
    params.gpioValue &&& params.gpioDispMask = params.gpioDispMask ∧
    OkFor (forcedTransactions params + params.unmuteWrites.length) (start (quiet 28) idByte) ∧
    QuietFor (forcedTransactions params) (start (failAt 27) idByte) ∧ 0 < params.unmuteWrites.length ∧
    FailsAt (forcedTransactions params + 0) (start (failAt 27) idByte) :=
  ⟨regMapFits_params, by unfold QuietFor; decide, by decide, by decide, by unfold OkFor; decide, by unfold QuietFor; decide, by decide,
    by unfold FailsAt OkFor; decide⟩

/-- InitForcedAbortsOnAWrongId. -/
theorem witness_wrongId :
    (start (quiet 3) []).params.verifyId = true ∧ QuietFor 3 (start (quiet 3) []) ∧
    Memory.get (start (quiet 3) []).mem 0x102400 ≠ (start (quiet 3) []).params.expectedId :=
  ⟨rfl, by unfold QuietFor; decide, by decide⟩

/-- InitForcedStopsAtTheFirstFailedTransaction: the first transaction, the ID read with a wrong ID byte, the first after
it, and the last. -/
theorem witness_initStops :
    QuietFor 0 (start (failAt 0) []) ∧ (envAt (start (failAt 0) []) 0).ok = false ∧
    QuietFor 2 (start (failAt 2) []) ∧ (envAt (start (failAt 2) []) 2).ok = false ∧ params.verifyId = true ∧
    Memory.get (start (failAt 2) []).mem 0x102400 ≠ params.expectedId ∧ ¬ 2 < 2 ∧
    QuietFor 3 (start (failAt 3) idByte) ∧ (envAt (start (failAt 3) idByte) 3).ok = false ∧ 2 < 3 ∧
    Memory.get idByte 0x102400 = params.expectedId ∧
    QuietFor 26 (start (failAt 26) idByte) ∧ (envAt (start (failAt 26) idByte) 26).ok = false ∧
    26 < forcedTransactions params ∧ RegMapFits (start (failAt 26) idByte).params :=
  ⟨by unfold QuietFor; decide, by decide, by unfold QuietFor; decide, by decide, rfl, by decide, by decide,
    by unfold QuietFor; decide, by decide, by decide, by decide, by unfold QuietFor; decide, by decide, by decide,
    regMapFits_params⟩

/-- The environment of L2-INIT-4 or L2-INIT-5: the chip changes one byte before the readbacks. -/
def readbackEnv (gpio pclk : List Host.Cell) : List EnvAction := quiet 25 ++ [⟨gpio, true⟩, ⟨pclk, true⟩]

/-- InitForcedChecksTheDisplayReadback: a wrong GPIO byte (L2-INIT-4), and a wrong divisor (L2-INIT-5). -/
theorem witness_readback :
    (OkFor (forcedTransactions params) (start (readbackEnv [(0x102490, 0)] []) idByte) ∧
      QuietFor (forcedTransactions params - 2) (start (readbackEnv [(0x102490, 0)] []) idByte) ∧
      (0 : Byte) &&& params.gpioDispMask ≠ params.gpioDispMask) ∧
    (OkFor (forcedTransactions params) (start (readbackEnv [] [(0x10246C, 0)]) idByte) ∧
      QuietFor (forcedTransactions params - 2) (start (readbackEnv [] [(0x10246C, 0)]) idByte) ∧ (0 : Byte) ≠ params.pclkDiv) ∧
    Memory.get idByte 0x102400 = params.expectedId :=
  ⟨⟨by unfold OkFor; decide, by unfold QuietFor; decide, by decide⟩,
    ⟨by unfold OkFor; decide, by unfold QuietFor; decide, by decide⟩, by decide⟩

/-- The two failures of witness_readback happen: L2-INIT-4 and L2-INIT-5. -/
theorem test_initForced_readback :
    [start (readbackEnv [(0x102490, 0)] []) idByte, start (readbackEnv [] [(0x10246C, 0)]) idByte].map (fun s =>
      after (fun t => (t.response, t.initState, t.tick)) .initForced s) =
    [some (some ⟨.fail .verify, .none⟩, .failed, 27), some (some ⟨.fail .verify, .none⟩, .failed, 27)] := by decide

/-- InitProbeAdoptsARunningDisplay. -/
theorem witness_adopts :
    QuietFor 3 (start (quiet 3) running) ∧ Memory.get running 0x102490 &&& params.gpioDispMask = params.gpioDispMask ∧
    Memory.get running 0x10246C = params.pclkDiv ∧ (Memory.value running 0x1024E8 4).toNat = 288 ∧ 288 < 4096 ∧
    288 % 4 = 0 := ⟨by unfold QuietFor; decide, by decide, by decide, by decide, by decide, by decide⟩

/-- A state whose GPIO byte shows the display, with these other bytes. -/
def probed (pclk hi : Byte) : State := start (quiet 3) [(0x10246C, pclk), (0x102490, 0x80), (0x1024E9, hi)]

/-- AnInconclusiveProbeRunsTheForcedPath: no display bit; another divisor (L2-INIT-14); the pointer 4096 (L2-INIT-16). -/
theorem witness_inconclusive :
    (¬ (Memory.get (memNext (start (quiet 3) [])) 0x102490 &&& params.gpioDispMask = params.gpioDispMask)) ∧
    ((envAt (probed 3 1) 0).ok = true ∧
      Memory.get (memNext (probed 3 1)) 0x102490 &&& params.gpioDispMask = params.gpioDispMask ∧
      Memory.get (memNext (afterRead 0x102490 .w8 (probed 3 1))) 0x10246C ≠ params.pclkDiv) ∧
    ((envAt (probed 5 16) 0).ok = true ∧
      Memory.get (memNext (probed 5 16)) 0x102490 &&& params.gpioDispMask = params.gpioDispMask ∧
      (envAt (afterRead 0x102490 .w8 (probed 5 16)) 0).ok = true ∧
      Memory.get (memNext (afterRead 0x102490 .w8 (probed 5 16))) 0x10246C = params.pclkDiv ∧
      (Memory.value (memNext (afterRead 0x10246C .w8 (afterRead 0x102490 .w8 (probed 5 16)))) 0x1024E8 4).toNat = 4096) :=
  by decide

/-- AValidTouchSampleLosesNothing: one away from each sentinel. -/
theorem witness_touch :
    (envAt (start (quiet 1) [(0x102508, 0xFE), (0x102509, 0xFF), (0x10250A, 0xFF), (0x10250B, 0xFF)]) 0).ok = true ∧
    Memory.value (memNext (start (quiet 1) [(0x102508, 0xFE), (0x102509, 0xFF), (0x10250A, 0xFF), (0x10250B, 0xFF)]))
      0x102508 4 ≠ 0xFFFFFFFF ∧
    Memory.value (memNext (start (quiet 1) [(0x102510, 1), (0x102511, 0x80), (0x102513, 0x80)])) 0x102510 4 ≠
      0x80008000 := by decide

/-- The transform operations: success, and a failure at the first and at the last transaction. -/
theorem witness_transform :
    RegMapFits (start (quiet 6) []).params ∧ OkFor 6 (start (quiet 6) []) ∧ QuietFor 6 (start (quiet 6) []) ∧ FailsAt 0 (start (failAt 0) []) ∧
    FailsAt 5 (start (failAt 5) []) ∧ 5 < 6 :=
  ⟨regMapFits_params, by unfold OkFor; decide, by unfold QuietFor; decide, by unfold FailsAt OkFor; decide,
    by unfold FailsAt OkFor; decide, by decide⟩

/-- ButtonPollStepsTheDebounceTable: for each of its ten clauses a state whose DEB_STATE, tag read (real or not) and last
tag (equal or not) are the clause's; 1 and 254 are real. -/
theorem witness_debounce :
    [(DebState.noButton, (0 : Byte), (1 : Byte), true, false), (.noButton, 0, 255, false, false),
      (.debounce, 254, 254, true, true), (.debounce, 1, 254, true, false), (.debounce, 1, 0, false, false),
      (.detected, 1, 1, true, true), (.detected, 1, 254, true, false), (.detected, 1, 255, false, false),
      (.discard, 1, 254, true, false), (.discard, 1, 0, false, false)].all (fun c =>
      let s : State := { start (quiet 1) [(0x102518, c.2.2.1)] with debState := c.1, lastTag := c.2.1 }
      let t : Byte := if (envAt s 0).ok then Memory.get (memNext s) 0x102518 else 0
      decide (s.debState = c.1) && decide (t = c.2.2.1) && decide (decide (t ≠ 0 ∧ t ≠ 255) = c.2.2.2.1) &&
        decide (decide (t = s.lastTag) = c.2.2.2.2)) = true := by decide

/-- The chip's tags for the polls of the last two statements: 5, 5, then 0, then 5, 5. -/
def pollEnv : List EnvAction :=
  [⟨[(0x102518, 5)], true⟩, ⟨[], true⟩, ⟨[(0x102518, 0)], true⟩, ⟨[(0x102518, 5)], true⟩, ⟨[], true⟩]

/-- APressNeedsTheSameTagOnTwoPolls and BetweenTwoPressesThereIsAReleaseOrADiscard: presses at polls 1 and 4. -/
theorem witness_presses :
    (start pollEnv []).debState = .noButton ∧
    ((debStates (start pollEnv []) [true, true, true, true, true])[1]?).map (fun t => isPress (eventOf t)) = some true ∧
    ((debStates (start pollEnv []) [true, true, true, true, true])[4]?).map (fun t => isPress (eventOf t)) = some true :=
  ⟨rfl, by decide, by decide⟩

end Sys2Proof.Tests
end

/-! PROOFS. The encoders (R200 to R258): `exec` packs by shift-and-or, `encodeWords` by sums. The two agree because the
fields of each word are apart from one another and from the opcode part, so that or-ing a field in adds it. -/

namespace Sys2Proof.Proofs

open Sys2Proof.Machine Sys2Proof.Laws

/-- The opcode part plus each field masked and at its place, summed from the left as `encodeWords` writes it. -/
def sumFields (opc : Nat) (fs : List (Nat × Nat × Int)) : Nat :=
  fs.foldl (fun acc f => acc + atField f.1 f.2.1 f.2.2) opc

theorem sumFields_eq_add_fieldSum (opc : Nat) (fs : List (Nat × Nat × Int)) :
    sumFields opc fs = opc + fieldSum fs := by
  induction fs generalizing opc with
  | nil => rfl
  | cons f fs ih => exact (ih _).trans (Nat.add_assoc ..)

/-- R106 in the form of `encodeWords`: fields in descending order below bit `top` of the opcode part. -/
theorem emitWord_pack {opc top : Nat} {fs : List (Nat × Nat × Int)} {s : State} (hd : descending top fs = true)
    (ho : 2 ^ top ∣ opc) :
    emitWord (pack opc fs) s = .next (respond .ok (.word (BitVec.ofNat 32 (sumFields opc fs))) s) := by
  rw [pack_eq_sum hd ho, sumFields_eq_add_fieldSum]
  rfl

/-- R255 in the form of `encodeWords`. -/
theorem hw16_eq_atField (p q : Int) : hw16 p q = BitVec.ofNat 32 (atField 16 0 p + atField 16 16 q) := by
  rw [hw16_eq_sum, atField, atField, pow_zero, mul_one]

/-- Settles O8, by the operation's class: an OP8 word has its fields below bit 24, a vertex word below bit 30 (C1), a
token has no field, and a string command answers a list of header words. -/
theorem encoderOperationsEmitTheEncodedWords : Obligations.EncoderOperationsEmitTheEncodedWords := by
  intro i ws s h
  cases i
  case display | bitmapSource | clearColorRgb | tag | colorRgb | bitmapHandle | cell | bitmapLayout | bitmapSize
      | alphaFunc | stencilFunc | blendFunc | stencilOp | pointSize | lineWidth | clearColorA | colorA | clearStencil
      | clearTag | stencilMask | tagMask | bitmapTransformA | bitmapTransformB | bitmapTransformC | bitmapTransformD
      | bitmapTransformE | bitmapTransformF | scissorXy | scissorSize | call | jump | beginPrim | colorMask | endPrim
      | saveContext | restoreContext | returnList | macroWord | clear =>
    cases h
    exact .inl ⟨_, rfl, emitWord_pack (top := 24) rfl (by decide)⟩
  case vertex2f | vertex2ii =>
    cases h
    exact .inl ⟨_, rfl, emitWord_pack (top := 30) rfl (by decide)⟩
  case cmdDlstart | cmdSwap | cmdCalibrate =>
    cases h
    exact .inl ⟨_, rfl, rfl⟩
  case cmdText | cmdButton | cmdSpinner =>
    cases h
    refine .inr ⟨by simp, ?_⟩
    simp only [← hw16_eq_atField]
    rfl
  case writeWord | writeBuffer | writeStringCmd | fifoEmpty | initForced | initProbe | getTouchRawXy | getTouchScreenXy
      | getTouchTag | getTouchTransform | setTouchTransform | buttonPoll | discardActiveButton =>
    cases h

/-- An operation encoded as one word answers it and changes nothing else. -/
theorem exec_of_encodeWords_singleton {i : Instr} {w : Word} (s : State) (h : encodeWords i = some [w]) :
    exec i s = .next (respond .ok (.word w) s) := by
  obtain ⟨v, hv, he⟩ | ⟨hlen, -⟩ := encoderOperationsEmitTheEncodedWords i [w] s h
  · cases hv
    exact he
  · exact absurd hlen (by simp)

/-! The rules' words: each is its operation's encoding, a field at bit 0 written without its place. -/

/-- Settles O1, from O8's `exec_of_encodeWords_singleton` at each operation of R203 to R213. -/
theorem colorAndBitmapEncodersEmitTheirWords : Obligations.ColorAndBitmapEncodersEmitTheirWords := by
  intro s
  refine ⟨?display, ?bitmapSource, ?clearColorRgb, ?tag, ?colorRgb, ?bitmapHandle, ?cell, ?bitmapLayout, ?bitmapSize,
    ?alphaFunc, ?stencilFunc⟩
  case display => exact exec_of_encodeWords_singleton s rfl
  all_goals
    intros
    exact exec_of_encodeWords_singleton s (by simp only [encodeWords, atField, pow_zero, mul_one])

/-- Settles O2, from O8's `exec_of_encodeWords_singleton` at each operation of R214 to R223. -/
theorem blendAndMaskEncodersEmitTheirWords : Obligations.BlendAndMaskEncodersEmitTheirWords := by
  intro s
  refine ⟨?blendFunc, ?stencilOp, ?pointSize, ?lineWidth, ?clearColorA, ?colorA, ?clearStencil, ?clearTag, ?stencilMask,
    ?tagMask⟩
  all_goals
    intros
    exact exec_of_encodeWords_singleton s (by simp only [encodeWords, atField, pow_zero, mul_one])

/-- Settles O3, from O8's `exec_of_encodeWords_singleton` at each operation of R224 to R229. -/
theorem transformEncodersEmitTheirWords : Obligations.TransformEncodersEmitTheirWords := by
  intro s
  refine ⟨?bitmapTransformA, ?bitmapTransformB, ?bitmapTransformC, ?bitmapTransformD, ?bitmapTransformE,
    ?bitmapTransformF⟩
  all_goals
    intros
    exact exec_of_encodeWords_singleton s (by simp only [encodeWords, atField, pow_zero, mul_one])

/-- Settles O4, from O8's `exec_of_encodeWords_singleton` at each operation of R230 to R241. -/
theorem scissorAndContextEncodersEmitTheirWords : Obligations.ScissorAndContextEncodersEmitTheirWords := by
  intro s
  refine ⟨?scissorXy, ?scissorSize, ?call, ?jump, ?beginPrim, ?colorMask, ?endPrim, ?saveContext, ?restoreContext,
    ?returnList, ?macroWord, ?clear⟩
  case endPrim | saveContext | restoreContext | returnList => exact exec_of_encodeWords_singleton s rfl
  all_goals
    intros
    exact exec_of_encodeWords_singleton s (by simp only [encodeWords, atField, pow_zero, mul_one])

/-- Settles O5, from O8's `exec_of_encodeWords_singleton` at each operation of R242 and R243. -/
theorem vertexEncodersEmitTheirWords : Obligations.VertexEncodersEmitTheirWords := by
  intro s
  refine ⟨?vertex2f, ?vertex2ii⟩
  all_goals
    intros
    exact exec_of_encodeWords_singleton s (by simp only [encodeWords, atField, pow_zero, mul_one])

end Sys2Proof.Proofs

/-! PROOFS. The touch decoder's samples (R371 to R374): each operation is one register read, and what it answers is a
function of what that read yields. -/

namespace Sys2Proof.Proofs

open Sys2Proof.Machine Sys2Proof.Laws Sys2Proof.Safety

/-- The dispatcher's meaning of `GET_TOUCH_RAW_XY`. -/
theorem exec_getTouchRawXy (s : State) : exec .getTouchRawXy s = .next (sampleXy .touchRawXy rawSentinel s) := rfl

/-- The dispatcher's meaning of `GET_TOUCH_SCREEN_XY`. -/
theorem exec_getTouchScreenXy (s : State) :
    exec .getTouchScreenXy s = .next (sampleXy .touchScreenXy screenSentinel s) := rfl

/-- The dispatcher's meaning of `GET_TOUCH_TAG`. -/
theorem exec_getTouchTag (s : State) :
    exec .getTouchTag s = .next (respond .ok (.tag (tagOf (busRead (regAddr s.params .touchTag) .w8 s)))
      (afterRead (regAddr s.params .touchTag) .w8 s)) := rfl

/-- The high half of a touch word, divided out, is its bits 31:16 (R374). -/
theorem split_fst (r : Word) : (split r).1 = r.extractLsb' 16 16 :=
  BitVec.eq_of_toNat_eq (by simp [split, Nat.shiftRight_eq_div_pow])

/-- The low half of a touch word, its remainder, is its bits 15:0 (R374). -/
theorem split_snd (r : Word) : (split r).2 = r.extractLsb' 0 16 :=
  BitVec.eq_of_toNat_eq (by simp [split])

/-- A word read that is not the sentinel is a valid sample of its halves; the sentinel, or a failed read, is no touch
(R371, R372). -/
theorem touchSample_ite (ok : Bool) (sentinel v : Word) :
    touchSample sentinel (if ok then some v else none) =
      if ok = true ∧ v ≠ sentinel then .sample true (v.extractLsb' 16 16) (v.extractLsb' 0 16)
      else .sample false 0 0 := by
  cases ok with
  | false => rfl
  | true =>
    by_cases h : v = sentinel
    · simp [touchSample, h]
    · simp [touchSample, h, split_fst, split_snd]

/-- A sample operation answers the sample of the word at its register and issues that one read (R371, R372). -/
theorem sampleXy_eq (reg : Reg) (sentinel : Word) (s : State) :
    sampleXy reg sentinel s = respond .ok
      (if (envAt s 0).ok = true ∧ Memory.value (memNext s) (regAddr s.params reg).toNat 4 ≠ sentinel then
        .sample true ((Memory.value (memNext s) (regAddr s.params reg).toNat 4).extractLsb' 16 16)
          ((Memory.value (memNext s) (regAddr s.params reg).toNat 4).extractLsb' 0 16)
      else .sample false 0 0) (afterRead (regAddr s.params reg) .w32 s) := by
  rw [sampleXy, busRead_eq, touchSample_ite]
  rfl

/-- A tag read answers the byte at its address, `no_tag` where it fails (R373). -/
theorem tagOf_busRead (a : Addr) (s : State) :
    tagOf (busRead a .w8 s) = if (envAt s 0).ok then Memory.get (memNext s) a.toNat else 0 := by
  have hbyte : Memory.value (memNext s) a.toNat (widthBytes .w8) = (Memory.get (memNext s) a.toNat).setWidth 32 :=
    value_one _ _ a.isLt
  rw [busRead_eq, hbyte]
  cases (envAt s 0).ok with
  | false => rfl
  | true => exact BitVec.setWidth_setWidth_of_le _ (by decide)

/-- Settles O47, by `sampleXy_eq` at each register and its sentinel. -/
theorem touchSamplesFollowTheSentinels : Obligations.TouchSamplesFollowTheSentinels := by
  intro s
  rw [exec_getTouchRawXy, exec_getTouchScreenXy, sampleXy_eq, sampleXy_eq]
  exact ⟨rfl, rfl⟩

/-- Settles O49, by `tagOf_busRead` at REG_TOUCH_TAG. -/
theorem touchTagIsTheByteReadOrNone : Obligations.TouchTagIsTheByteReadOrNone := by
  intro s
  rw [exec_getTouchTag, tagOf_busRead]

end Sys2Proof.Proofs

/-! PROOFS. The reference decoder (R108 to R110). -/

namespace Sys2Proof.Proofs

open Sys2Proof.Machine Sys2Proof.Laws Sys2Proof.Safety

/-! ### Fields -/

theorem canonical_eq_ok {n k fixed : Nat} {i j : Instr} :
    canonical n k fixed i = .ok j ↔ n / 2 ^ k = fixed ∧ i = j := by
  unfold canonical
  split <;> simp [*]

theorem sext_mask_of_fitsSigned {w : Nat} {p : Int} (hw : 0 < w) (h : fitsSigned w p = true) :
    sext w (mask w p) = p := by
  obtain ⟨k, rfl⟩ : ∃ k, w = k + 1 := ⟨w - 1, by omega⟩
  simp only [fitsSigned, Nat.add_sub_cancel, Bool.and_eq_true, decide_eq_true_eq] at h
  have hp : (0 : Int) < 2 ^ k := by positivity
  have hpow : (2 : Int) ^ (k + 1) = 2 * 2 ^ k := by ring
  have hcast : ((2 ^ k : Nat) : Int) = 2 ^ k := by norm_cast
  by_cases hneg : p < 0
  · have hm : p % 2 ^ (k + 1) = p + 2 ^ (k + 1) := by
      rw [← Int.add_emod_right, Int.emod_eq_of_lt] <;> omega
    have : ¬ (p % 2 ^ (k + 1)).toNat < 2 ^ k := by omega
    simp only [sext, mask, Nat.add_sub_cancel, if_neg this]
    omega
  · have hm : p % 2 ^ (k + 1) = p := Int.emod_eq_of_lt (by omega) (by omega)
    have : (p % 2 ^ (k + 1)).toNat < 2 ^ k := by omega
    simp only [sext, mask, Nat.add_sub_cancel, if_pos this]
    omega

/-- A masked operand within its field is the operand, so a well-formed operation is its own masked form (R108). -/
theorem maskOperands_of_wellFormed {i : Instr} (h : i.WellFormed) : maskOperands i = i := by
  cases i <;>
    simp only [Instr.WellFormed, Instr.wellFormed, Bool.and_eq_true] at h <;>
    simp only [maskOperands, mask_of_fitsUnsigned, sext_mask_of_fitsSigned, Nat.zero_lt_succ, h]

/-! ### Display-list words -/

/-- The fields of a display-list word, each (width, low bit, operand), from the highest down (R203 to R243). -/
def wordFields : Instr → List (Nat × Nat × Int)
  | .bitmapSource addr => [(20, 0, addr)]
  | .clearColorRgb red green blue => [(8, 16, red), (8, 8, green), (8, 0, blue)]
  | .tag v => [(8, 0, v)]
  | .colorRgb red green blue => [(8, 16, red), (8, 8, green), (8, 0, blue)]
  | .bitmapHandle handle => [(5, 0, handle)]
  | .cell cellNo => [(7, 0, cellNo)]
  | .bitmapLayout format linestride height => [(5, 19, format), (10, 9, linestride), (9, 0, height)]
  | .bitmapSize filter wrapx wrapy width height =>
    [(1, 20, filter), (1, 19, wrapx), (1, 18, wrapy), (9, 9, width), (9, 0, height)]
  | .alphaFunc func ref => [(3, 8, func), (8, 0, ref)]
  | .stencilFunc func ref mask => [(4, 16, func), (8, 8, ref), (8, 0, mask)]
  | .blendFunc src dst => [(3, 3, src), (3, 0, dst)]
  | .stencilOp sfail spass => [(3, 3, sfail), (3, 0, spass)]
  | .pointSize size => [(13, 0, size)]
  | .lineWidth width => [(12, 0, width)]
  | .clearColorA v | .colorA v | .clearStencil v | .clearTag v | .stencilMask v => [(8, 0, v)]
  | .tagMask mask => [(1, 0, mask)]
  | .bitmapTransformA v | .bitmapTransformB v | .bitmapTransformD v | .bitmapTransformE v => [(17, 0, v)]
  | .bitmapTransformC v | .bitmapTransformF v => [(24, 0, v)]
  | .scissorXy x y => [(9, 9, x), (9, 0, y)]
  | .scissorSize width height => [(10, 10, width), (10, 0, height)]
  | .call dest | .jump dest => [(16, 0, dest)]
  | .beginPrim prim => [(4, 0, prim)]
  | .colorMask r g b a => [(1, 3, r), (1, 2, g), (1, 1, b), (1, 0, a)]
  | .macroWord m => [(1, 0, m)]
  | .clear color stencil tagBit => [(1, 2, color), (1, 1, stencil), (1, 0, tagBit)]
  | .vertex2f x y => [(15, 15, x), (15, 0, y)]
  | .vertex2ii x y handle cellNo => [(9, 21, x), (9, 12, y), (5, 7, handle), (7, 0, cellNo)]
  | _ => []

/-- The opcode part of a display-list word: bits 31:30 of a vertex word, else the opcode byte, which is the OPSEL. -/
def opcodePart : Instr → Nat
  | .vertex2f _ _ => 0x40000000
  | .vertex2ii _ _ _ _ => 0x80000000
  | i => i.opsel.toNat * 2 ^ 24

/-- The number that an operation's display-list word holds. -/
def wordValue (i : Instr) : Nat := sumFields (opcodePart i) (wordFields i)

theorem encodeWords_eq_wordValue {i : Instr} (h : i.opsel.toNat ≤ 0x41) :
    encodeWords i = some [BitVec.ofNat 32 (wordValue i)] := by
  cases i
  case cmdDlstart | cmdSwap | cmdCalibrate | cmdText | cmdButton | cmdSpinner | writeWord | writeBuffer
      | writeStringCmd | fifoEmpty | initForced | initProbe | getTouchRawXy | getTouchScreenXy | getTouchTag
      | getTouchTransform | setTouchTransform | buttonPoll | discardActiveButton =>
    simp [Instr.opsel] at h
  all_goals simp [encodeWords, wordValue, sumFields, wordFields, opcodePart, Instr.opsel]

theorem wordFields_descending {i : Instr} (h : i.opsel.toNat ≤ 0x26) : descending 24 (wordFields i) = true := by
  cases i
  case vertex2f | vertex2ii => simp [Instr.opsel] at h
  all_goals rfl

theorem fieldSum_lt {top : Nat} {fs : List (Nat × Nat × Int)} (h : descending top fs = true) :
    fieldSum fs < 2 ^ top := by
  induction fs generalizing top with
  | nil => exact Nat.two_pow_pos top
  | cons f fs ih =>
    simp only [descending, Bool.and_eq_true, decide_eq_true_eq] at h
    calc mask f.1 f.2.2 * 2 ^ f.2.1 + fieldSum fs
        < (mask f.1 f.2.2 + 1) * 2 ^ f.2.1 := by have := ih h.2; rw [Nat.add_mul]; omega
      _ ≤ 2 ^ f.1 * 2 ^ f.2.1 := Nat.mul_le_mul_right _ (mask_lt _ _)
      _ ≤ 2 ^ top := by rw [← Nat.pow_add, Nat.add_comm]; exact Nat.pow_le_pow_right (by decide) h.1

/-- The bits above the fields are the opcode part's. -/
theorem sumFields_div {top opc : Nat} {fs : List (Nat × Nat × Int)} (h : descending top fs = true)
    (ho : 2 ^ top ∣ opc) : sumFields opc fs / 2 ^ top = opc / 2 ^ top := by
  rw [sumFields_eq_add_fieldSum, Nat.add_div_of_dvd_right ho, Nat.div_eq_of_lt (fieldSum_lt h), Nat.add_zero]

/-- Each field holds its operand, masked (R106). -/
theorem sumFields_field {top opc : Nat} {fs : List (Nat × Nat × Int)} (h : descending top fs = true)
    (ho : 2 ^ top ∣ opc) : ∀ f ∈ fs, sumFields opc fs / 2 ^ f.2.1 % 2 ^ f.1 = mask f.1 f.2.2 := by
  induction fs generalizing top opc with
  | nil => simp
  | cons f fs ih =>
    simp only [descending, Bool.and_eq_true, decide_eq_true_eq] at h
    have hacc : 2 ^ f.2.1 ∣ opc + atField f.1 f.2.1 f.2.2 :=
      Nat.dvd_add ((Nat.pow_dvd_pow 2 (by omega)).trans ho) (Dvd.intro_left _ rfl)
    have hsum : sumFields opc (f :: fs) = sumFields (opc + atField f.1 f.2.1 f.2.2) fs := rfl
    obtain ⟨q, rfl⟩ : 2 ^ (f.2.1 + f.1) ∣ opc := (Nat.pow_dvd_pow 2 h.1).trans ho
    intro g hg
    rw [hsum]
    rcases List.mem_cons.mp hg with rfl | hg
    · rw [sumFields_div h.2 hacc, atField, Nat.pow_add, Nat.mul_assoc, Nat.mul_comm (mask _ _), ← Nat.mul_add,
        Nat.mul_div_cancel_left _ (Nat.two_pow_pos _), Nat.mul_add_mod, Nat.mod_eq_of_lt (mask_lt _ _)]
    · exact ih h.2 hacc g hg

theorem opcodePart_op8 {i : Instr} (h : i.opsel.toNat ≤ 0x26) : opcodePart i = i.opsel.toNat * 2 ^ 24 := by
  cases i
  case vertex2f | vertex2ii => simp [Instr.opsel] at h
  all_goals rfl

/-- The opcode byte of an OP8 word is its operation's OPSEL. -/
theorem wordValue_div_op8 {i : Instr} (h : i.opsel.toNat ≤ 0x26) : wordValue i / 2 ^ 24 = i.opsel.toNat := by
  rw [wordValue, sumFields_div (wordFields_descending h) (opcodePart_op8 h ▸ Dvd.intro_left _ rfl), opcodePart_op8 h,
    Nat.mul_div_cancel _ (Nat.two_pow_pos _)]

theorem decodeOp8_wordValue {i : Instr} (h : i.opsel.toNat ≤ 0x26) : decodeOp8 (wordValue i) = .ok (maskOperands i) := by
  have hop := opcodePart_op8 h
  have hdiv := wordValue_div_op8 h
  have hfield := sumFields_field (wordFields_descending h) (hop ▸ Dvd.intro_left _ rfl)
  have hfixed : ∀ k, descending k (wordFields i) = true → 2 ^ k ∣ i.opsel.toNat * 2 ^ 24 →
      wordValue i / 2 ^ k = i.opsel.toNat * 2 ^ 24 / 2 ^ k := fun k => hop ▸ sumFields_div
  rw [← wordValue] at hfield
  clear hop
  generalize wordValue i = n at hdiv hfield hfixed
  cases i
  case vertex2f | vertex2ii => simp [Instr.opsel] at h
  case cmdDlstart | cmdSwap | cmdCalibrate | cmdText | cmdButton | cmdSpinner | writeWord | writeBuffer
      | writeStringCmd | fifoEmpty | initForced | initProbe | getTouchRawXy | getTouchScreenXy | getTouchTag
      | getTouchTransform | setTouchTransform | buttonPoll | discardActiveButton =>
    simp [Instr.opsel] at h
  all_goals
    simp only [wordFields, List.forall_mem_cons] at hfield
    simp only [decodeOp8, hdiv]
    refine canonical_eq_ok.mpr ⟨(hfixed _ ?_ ?_).trans ?_, ?_⟩
    · rfl
    · simp only [Instr.opsel]; decide
    · simp only [Instr.opsel]; decide
    · simp only [maskOperands, ufield, sfield, hfield]

theorem decodeDisplayList_vertex2f (x y : Int) :
    decodeDisplayList (wordValue (.vertex2f x y)) = .ok (maskOperands (.vertex2f x y)) := by
  have hdesc : descending 30 (wordFields (.vertex2f x y)) = true := rfl
  have hdvd : 2 ^ 30 ∣ opcodePart (.vertex2f x y) := Nat.dvd_refl _
  have hdiv : wordValue (.vertex2f x y) / 2 ^ 30 = 1 := (sumFields_div hdesc hdvd).trans (by rw [opcodePart]; decide)
  have hfield := sumFields_field hdesc hdvd
  rw [← wordValue, wordFields] at hfield
  simp only [List.forall_mem_cons] at hfield
  rw [decodeDisplayList, if_pos hdiv]
  simp only [maskOperands, sfield, hfield]

theorem decodeDisplayList_vertex2ii (x y handle cellNo : Int) :
    decodeDisplayList (wordValue (.vertex2ii x y handle cellNo)) =
      .ok (maskOperands (.vertex2ii x y handle cellNo)) := by
  have hdesc : descending 30 (wordFields (.vertex2ii x y handle cellNo)) = true := rfl
  have hdvd : 2 ^ 30 ∣ opcodePart (.vertex2ii x y handle cellNo) := ⟨2, rfl⟩
  have hdiv : wordValue (.vertex2ii x y handle cellNo) / 2 ^ 30 = 2 :=
    (sumFields_div hdesc hdvd).trans (by rw [opcodePart]; decide)
  have hfield := sumFields_field hdesc hdvd
  rw [← wordValue, wordFields] at hfield
  simp only [List.forall_mem_cons] at hfield
  rw [decodeDisplayList, hdiv, if_neg (by decide), if_pos rfl]
  simp only [maskOperands, ufield, hfield]

/-- A display-list word decodes to its operation, each operand masked to its field (R108). -/
theorem decodeDisplayList_wordValue {i : Instr} (h : i.opsel.toNat ≤ 0x41) :
    decodeDisplayList (wordValue i) = .ok (maskOperands i) := by
  by_cases hop8 : i.opsel.toNat ≤ 0x26
  · have hdiv := wordValue_div_op8 hop8
    rw [decodeDisplayList, if_neg (by omega), if_neg (by omega), decodeOp8_wordValue hop8]
  · cases i
    case vertex2f x y => exact decodeDisplayList_vertex2f x y
    case vertex2ii x y handle cellNo => exact decodeDisplayList_vertex2ii x y handle cellNo
    all_goals simp [Instr.opsel] at h hop8

/-- No display-list word is a token (R104). -/
theorem wordValue_lt {i : Instr} (h : i.opsel.toNat ≤ 0x41) : wordValue i < 0xFF000000 := by
  by_cases hop8 : i.opsel.toNat ≤ 0x26
  · have hdiv := wordValue_div_op8 hop8
    omega
  · cases i
    case vertex2f x y =>
      have := fieldSum_lt (top := 30) (fs := wordFields (.vertex2f x y)) rfl
      rw [wordValue, sumFields_eq_add_fieldSum, opcodePart]
      omega
    case vertex2ii x y handle cellNo =>
      have := fieldSum_lt (top := 30) (fs := wordFields (.vertex2ii x y handle cellNo)) rfl
      rw [wordValue, sumFields_eq_add_fieldSum, opcodePart]
      omega
    all_goals simp [Instr.opsel] at h hop8

/-! ### Header words -/

theorem headerWord_low (p q : Int) :
    (BitVec.ofNat 32 (atField 16 0 p + atField 16 16 q)).toNat / 2 ^ 0 % 2 ^ 16 = mask 16 p := by
  have := mask_lt 16 p
  rw [BitVec.toNat_ofNat, atField, atField]
  omega

theorem headerWord_high (p q : Int) :
    (BitVec.ofNat 32 (atField 16 0 p + atField 16 16 q)).toNat / 2 ^ 16 % 2 ^ 16 = mask 16 q := by
  have := mask_lt 16 p
  have := mask_lt 16 q
  rw [BitVec.toNat_ofNat, atField, atField]
  omega

theorem decodeCommand_text (p q : Word) (rest : List Word) :
    decodeCommand (BitVec.ofNat 32 0xFFFFFF0C :: p :: q :: rest) = .ok (.cmdText (sfield p.toNat 0 16)
      (sfield p.toNat 16 16) (ufield q.toNat 0 16) (ufield q.toNat 16 16), rest) := rfl

theorem decodeCommand_button (p q r : Word) (rest : List Word) :
    decodeCommand (BitVec.ofNat 32 0xFFFFFF0D :: p :: q :: r :: rest) = .ok (.cmdButton (sfield p.toNat 0 16)
      (sfield p.toNat 16 16) (ufield q.toNat 0 16) (ufield q.toNat 16 16) (ufield r.toNat 0 16)
      (ufield r.toNat 16 16), rest) := rfl

theorem decodeCommand_spinner (p q : Word) (rest : List Word) :
    decodeCommand (BitVec.ofNat 32 0xFFFFFF16 :: p :: q :: rest) = .ok (.cmdSpinner (sfield p.toNat 0 16)
      (sfield p.toNat 16 16) (ufield q.toNat 0 16) (ufield q.toNat 16 16), rest) := rfl

/-- Settles O9: a display-list word is decoded by its opcode part and its fields, a token by its low byte, a string
command's operands from the halves of its header words. -/
theorem decodingAnEncodedCommandGivesItBack : Obligations.DecodingAnEncodedCommandGivesItBack := by
  have masked : ∀ (i : Instr) (ws rest : List Word), encodeWords i = some ws →
      decodeCommand (ws ++ rest) = .ok (maskOperands i, rest) := by
    intro i ws rest h
    by_cases hdl : i.opsel.toNat ≤ 0x41
    · rw [encodeWords_eq_wordValue hdl] at h
      cases h
      have hlt := wordValue_lt hdl
      have hw : (BitVec.ofNat 32 (wordValue i)).toNat = wordValue i := by rw [BitVec.toNat_ofNat]; omega
      rw [List.singleton_append, decodeCommand, hw, if_neg (by omega), decodeDisplayList_wordValue hdl]
      rfl
    · cases i
      case cmdDlstart | cmdSwap | cmdCalibrate => cases h; rfl
      case cmdText | cmdButton | cmdSpinner =>
        cases h
        simp only [List.cons_append, List.nil_append, decodeCommand_text, decodeCommand_button, decodeCommand_spinner,
          sfield, ufield, headerWord_low, headerWord_high, maskOperands]
      case writeWord | writeBuffer | writeStringCmd | fifoEmpty | initForced | initProbe | getTouchRawXy
          | getTouchScreenXy | getTouchTag | getTouchTransform | setTouchTransform | buttonPoll
          | discardActiveButton => cases h
      all_goals simp [Instr.opsel] at hdl
  intro i ws rest h
  refine ⟨masked i ws rest h, fun hwf => ?_⟩
  rw [masked i ws rest h, maskOperands_of_wellFormed hwf]

/-! ### What decodes -/

theorem fitsUnsigned_ufield (n lo w : Nat) : fitsUnsigned w (ufield n lo w) = true := by
  have hlt : n / 2 ^ lo % 2 ^ w < 2 ^ w := Nat.mod_lt _ (Nat.two_pow_pos w)
  rw [fitsUnsigned, ufield, Bool.and_eq_true, decide_eq_true_iff, decide_eq_true_iff]
  exact ⟨Int.natCast_nonneg _, by exact_mod_cast hlt⟩

theorem fitsSigned_sfield (n lo : Nat) {w : Nat} (hw : 0 < w) : fitsSigned w (sfield n lo w) = true := by
  obtain ⟨k, rfl⟩ : ∃ k, w = k + 1 := ⟨w - 1, by omega⟩
  have hlt : n / 2 ^ lo % 2 ^ (k + 1) < 2 ^ (k + 1) := Nat.mod_lt _ (Nat.two_pow_pos _)
  generalize n / 2 ^ lo % 2 ^ (k + 1) = u at hlt
  have hcast : ((2 ^ k : Nat) : Int) = 2 ^ k := by norm_cast
  have hpow : (2 : Int) ^ (k + 1) = 2 * 2 ^ k := by ring
  have hpowN : 2 ^ (k + 1) = 2 * 2 ^ k := by ring
  simp only [fitsSigned, sfield, sext, Nat.add_sub_cancel, Bool.and_eq_true, decide_eq_true_eq]
  split <;> omega

/-- A field read and put back at its place is the bits it was read from. -/
theorem atField_ufield (n lo w : Nat) : atField w lo (ufield n lo w) = n / 2 ^ lo % 2 ^ w * 2 ^ lo := by
  rw [atField, mask, ufield]
  congr 1
  have hcast : ((n / 2 ^ lo % 2 ^ w : Nat) : Int) % 2 ^ w = ((n / 2 ^ lo % 2 ^ w % 2 ^ w : Nat) : Int) := by
    push_cast; rfl
  rw [hcast, Int.toNat_natCast, Nat.mod_mod]

theorem atField_sfield (n lo w : Nat) : atField w lo (sfield n lo w) = n / 2 ^ lo % 2 ^ w * 2 ^ lo := by
  have hmask : mask w (sfield n lo w) = mask w (ufield n lo w) := by
    simp only [mask, sfield, ufield, sext]
    split
    · rfl
    · rw [Int.sub_emod_right]
  rw [atField, hmask, ← atField, atField_ufield]

/-- The operation is well-formed and `w` is its word. -/
def IsWordOf (w : Word) (i : Instr) : Prop := i.WellFormed ∧ encodeWords i = some [w]

theorem isWordOf_of_decodeOp8 {n : Nat} {i : Instr} (h : decodeOp8 n = .ok i) :
    IsWordOf (BitVec.ofNat 32 n) i := by
  unfold decodeOp8 at h
  split at h
  case h_40 => cases h
  all_goals
    obtain ⟨hfixed, rfl⟩ := canonical_eq_ok.mp h
    refine ⟨?_, ?_⟩
    · simp only [Instr.WellFormed, Instr.wellFormed, fitsUnsigned_ufield, fitsSigned_sfield, Nat.zero_lt_succ,
        Bool.and_self]
    · simp only [encodeWords, atField_ufield, atField_sfield]
      congr 3
      omega

theorem isWordOf_of_decodeDisplayList {n : Nat} {i : Instr} (h : decodeDisplayList n = .ok i) :
    IsWordOf (BitVec.ofNat 32 n) i := by
  unfold decodeDisplayList at h
  split at h
  case isTrue hop =>
    cases h
    refine ⟨by simp only [Instr.WellFormed, Instr.wellFormed, fitsSigned_sfield, Nat.zero_lt_succ, Bool.and_self], ?_⟩
    simp only [encodeWords, atField_sfield]
    congr 3
    omega
  case isFalse =>
    split at h
    case isTrue hop =>
      cases h
      refine ⟨by simp only [Instr.WellFormed, Instr.wellFormed, fitsUnsigned_ufield, Bool.and_self], ?_⟩
      simp only [encodeWords, atField_ufield]
      congr 3
      omega
    case isFalse => exact isWordOf_of_decodeOp8 h

/-- A header word is the sum of its halves. -/
theorem headerWord_eq (p : Word) :
    BitVec.ofNat 32 (p.toNat / 2 ^ 0 % 2 ^ 16 * 2 ^ 0 + p.toNat / 2 ^ 16 % 2 ^ 16 * 2 ^ 16) = p := by
  apply BitVec.eq_of_toNat_eq
  have := p.isLt
  rw [BitVec.toNat_ofNat]
  omega

/-- The operation of a token is well-formed and the words given are its encoding and the rest. -/
theorem encodeWords_of_decodeToken {w : Word} {ws rest : List Word} {i : Instr} (hw : w.toNat / 2 ^ 8 = 0xFFFFFF)
    (h : decodeToken w ws = .ok (i, rest)) :
    i.WellFormed ∧ ∃ es, encodeWords i = some es ∧ w :: ws = es ++ rest := by
  have token : ∀ k, w.toNat % 2 ^ 8 = k → w = BitVec.ofNat 32 (0xFFFFFF00 + k) := by
    intro k hk
    apply BitVec.eq_of_toNat_eq
    rw [BitVec.toNat_ofNat]
    omega
  unfold decodeToken at h
  split at h
  case h_1 hk | h_2 hk | h_3 hk =>
    cases h
    rw [token _ hk]
    exact ⟨rfl, _, rfl, rfl⟩
  case h_4 hk | h_5 hk | h_6 hk =>
    cases h
    rw [token _ hk]
    refine ⟨by simp only [Instr.WellFormed, Instr.wellFormed, fitsUnsigned_ufield, fitsSigned_sfield,
      Nat.zero_lt_succ, Bool.and_self], _, rfl, ?_⟩
    simp only [atField_ufield, atField_sfield, headerWord_eq]
    rfl
  all_goals cases h

/-- Settles O10, by the three forms of a command: a token, a vertex word, an OP8 word. -/
theorem everyDecodedCommandIsAnEncodedOne : Obligations.EveryDecodedCommandIsAnEncodedOne := by
  intro ws rest i h
  cases ws with
  | nil => cases h
  | cons w ws =>
    rw [decodeCommand] at h
    split at h
    case isTrue hw => exact encodeWords_of_decodeToken hw h
    case isFalse =>
      cases hd : decodeDisplayList w.toNat with
      | error e => rw [hd] at h; cases h
      | ok j =>
        rw [hd] at h
        cases h
        obtain ⟨hwf, henc⟩ := isWordOf_of_decodeDisplayList hd
        rw [BitVec.ofNat_toNat, BitVec.setWidth_eq] at henc
        exact ⟨hwf, _, henc, rfl⟩

end Sys2Proof.Proofs

/-! PROOFS. Requests and steps. -/

namespace Sys2Proof.Proofs

open Sys2Proof.Machine Sys2Proof.Laws Sys2Proof.Safety

/-- Settles O7, from O8: each operation's header words are its encoding, a field at bit 0 written without its place. -/
theorem stringHeaderEncodersEmitTheirWords : Obligations.StringHeaderEncodersEmitTheirWords := by
  have emitted : ∀ {i : Instr} {u v w : Word} {ws : List Word} (s : State), encodeWords i = some (u :: v :: w :: ws) →
      exec i s = .next (respond .ok (.words (u :: v :: w :: ws)) s) := by
    intro i u v w ws s h
    obtain ⟨x, hx, -⟩ | ⟨-, he⟩ := encoderOperationsEmitTheEncodedWords i _ s h
    · cases hx
    · exact he
  intro s
  refine ⟨?cmdText, ?cmdButton, ?cmdSpinner⟩
  all_goals
    intros
    exact emitted s (by simp only [encodeWords, atField, pow_zero, mul_one]; rfl)

/-- Settles O6, from O8's `exec_of_encodeWords_singleton`. -/
theorem tokenEncodersEmitTheirConstants : Obligations.TokenEncodersEmitTheirConstants := fun s =>
  ⟨exec_of_encodeWords_singleton s rfl, exec_of_encodeWords_singleton s rfl, exec_of_encodeWords_singleton s rfl⟩

/-- Settles O14, by evaluating the decoder on each word. -/
theorem writtenOutWordsDecodeRight : Obligations.WrittenOutWordsDecodeRight :=
  ⟨rfl, rfl, rfl, rfl, rfl, rfl, rfl, rfl, rfl, rfl, rfl, rfl⟩

/-! ### The request encoding -/

/-- Every operation's request decodes to it, but for a string command without a header word (R305, log 14). -/
theorem decode_encode {i : Instr} (h : ∀ str, i ≠ .writeStringCmd [] str) : decode (encode i) = .ok i := by
  cases i
  case writeStringCmd hs str =>
    cases hs with
    | nil => exact absurd rfl (h str)
    | cons => rfl
  all_goals rfl

/-- A request that decodes is the request of its operation (R120, R121). -/
theorem encode_of_decode {r : Request} {i : Instr} (h : decode r = .ok i) : encode i = r := by
  obtain ⟨opsel, operands⟩ := r
  unfold decode at h
  split at h
  case h_8 b hops =>
    split at h
    case isFalse => cases h
    case isTrue hsel => cases h; exact congrArg₂ Request.mk hsel.symm hops.symm
  case h_9 hs b hops =>
    split at h
    case isFalse => cases h
    case isTrue hsel =>
      split at h
      case isTrue => cases h
      case isFalse => cases h; exact congrArg₂ Request.mk hsel.symm hops.symm
  case h_10 => cases h
  all_goals
    rename_i hops
    simp only [decodeNone, decodeInt1, decodeInt2, decodeInt3, decodeInt4, decodeInt5, decodeInt6] at h
    split at h
    all_goals cases h
    all_goals exact congrArg₂ Request.mk (BitVec.eq_of_toNat_eq ‹_›).symm hops.symm

/-- The empty header list decodes to no operation (R305, log 14). -/
theorem decode_empty_header (o : Byte) (str : List Int) (i : Instr) :
    decode ⟨o, [.words [], .bytes str]⟩ ≠ .ok i := by
  intro h
  simp only [decode] at h
  split at h <;> cases h

theorem decode_eq_ok_iff {r : Request} {i : Instr} :
    decode r = .ok i ↔ encode i = r ∧ ∀ str, i ≠ .writeStringCmd [] str := by
  refine ⟨fun h => ⟨encode_of_decode h, ?_⟩, fun ⟨h, hne⟩ => h ▸ decode_encode hne⟩
  rintro str rfl
  rw [← encode_of_decode h] at h
  exact decode_empty_header _ _ _ h

/-- Settles O11, by `decode_eq_ok_iff`: a well-formed operation has a header word (R305). -/
theorem requestsAndOperationsCorrespond : Obligations.RequestsAndOperationsCorrespond := by
  refine ⟨fun i hwf => decode_encode ?_, fun r i => encode_of_decode⟩
  rintro str rfl
  cases hwf

/-- Every operation's request has the operand kinds of its OPSEL. -/
theorem opselAssigned (i : Instr) : OpselAssigned.Statement i := by cases i <;> rfl

theorem kind_eq_int {x : Operand} : x.kind = .int ↔ ∃ a, x = .int a := by cases x <;> simp [Operand.kind]

theorem map_kind_eq_bytes {ops : List Operand} (h : ops.map Operand.kind = [.bytes]) : ∃ b, ops = [.bytes b] := by
  match ops, h with
  | [.bytes b], _ => exact ⟨b, rfl⟩

theorem map_kind_eq_words_bytes {ops : List Operand} (h : ops.map Operand.kind = [.words, .bytes]) :
    ∃ hs b, ops = [.words hs, .bytes b] := by
  match ops, h with
  | [.words hs, .bytes b], _ => exact ⟨hs, b, rfl⟩

/-- Operands of the kinds of an assigned OPSEL spell an operation, but for an empty header list. -/
theorem decode_of_kinds {r : Request} (h : operandKinds r.opsel = some (r.operands.map Operand.kind))
    (hne : ∀ b, r.operands ≠ [.words [], .bytes b]) : ∃ i, decode r = .ok i := by
  obtain ⟨opsel, operands⟩ := r
  unfold operandKinds at h
  split at h
  case h_61 => cases h
  all_goals
    rename_i hsel
    replace h := (Option.some.inj h).symm
  case h_49 =>
    obtain ⟨b, rfl⟩ := map_kind_eq_bytes h
    exact ⟨.writeBuffer b, if_pos (BitVec.eq_of_toNat_eq hsel)⟩
  case h_50 =>
    obtain ⟨hs, b, rfl⟩ := map_kind_eq_words_bytes h
    cases hs with
    | nil => exact absurd rfl (hne b)
    | cons => exact ⟨.writeStringCmd _ b, if_pos (BitVec.eq_of_toNat_eq hsel)⟩
  all_goals
    repeat
      replace h := List.map_eq_cons_iff.mp h
      obtain ⟨x, rest, rfl, hx, h⟩ := h
      obtain ⟨v, rfl⟩ := kind_eq_int.mp hx
    obtain rfl := List.map_eq_nil_iff.mp h
    simp only [decode, decodeNone, decodeInt1, decodeInt2, decodeInt3, decodeInt4, decodeInt5, decodeInt6, hsel]
    exact ⟨_, rfl⟩

/-- Settles O12: a request that decodes is its operation's, whose operands have the kinds of its OPSEL; operands of
those kinds are matched by `decode_of_kinds`. -/
theorem requestIsAcceptedExactlyWithItsOperandKinds : Obligations.RequestIsAcceptedExactlyWithItsOperandKinds := by
  refine fun r => ⟨?_, fun ⟨h, hne⟩ => decode_of_kinds h hne⟩
  rintro ⟨i, h⟩
  refine ⟨encode_of_decode h ▸ opselAssigned i, fun b hb => ?_⟩
  obtain ⟨o, ops⟩ := r
  cases hb
  exact decode_empty_header _ _ _ h

/-- A request is rejected for its OPSEL or its operands, or for an empty header list. -/
theorem decode_eq_error {r : Request} {e : DecodeError} (h : decode r = .error e) :
    e = requestError r.opsel ∨ r.opsel = 0x62 := by
  unfold decode at h
  split at h
  case h_8 =>
    split at h
    · cases h
    · cases h; exact .inl rfl
  case h_9 =>
    split at h
    case isTrue hsel => exact .inr hsel
    case isFalse => cases h; exact .inl rfl
  case h_10 => cases h; exact .inl rfl
  all_goals
    simp only [decodeNone, decodeInt1, decodeInt2, decodeInt3, decodeInt4, decodeInt5, decodeInt6] at h
    split at h
    all_goals cases h
    exact .inl rfl

/-- An OPSEL in a range of R123 has no operand list. -/
theorem operandKinds_unassigned {o : Byte} (h : 0x27 ≤ o.toNat ∧ o.toNat ≤ 0x3F ∨ 0x42 ≤ o.toNat ∧ o.toNat ≤ 0x4F ∨
    0x56 ≤ o.toNat ∧ o.toNat ≤ 0x5F ∨ 0x64 ≤ o.toNat ∧ o.toNat ≤ 0x6F ∨ 0x72 ≤ o.toNat ∧ o.toNat ≤ 0x7F ∨
    0x85 ≤ o.toNat ∧ o.toNat ≤ 0x8F ∨ 0x92 ≤ o.toNat ∧ o.toNat ≤ 0xFF) : operandKinds o = none := by
  unfold operandKinds
  split
  case h_61 => rfl
  all_goals omega

/-- Settles O13: an OPSEL without an operand list is that of no operation's request (`opselAssigned`), so the request is
rejected, and for its OPSEL. -/
theorem unassignedCodesSpellNoOperation : Obligations.UnassignedCodesSpellNoOperation := by
  rintro r n rfl h
  have hnone := operandKinds_unassigned h
  cases hd : decode r with
  | ok i =>
    have hsome := opselAssigned i
    rw [OpselAssigned.Statement, encode_of_decode hd, hnone] at hsome
    cases hsome
  | error e =>
    rcases decode_eq_error hd with rfl | hsel
    · rw [requestError, hnone]
      rfl
    · rw [hsel] at hnone
      cases hnone

/-! ### Steps -/

theorem step_of_decode {s : State} {r : Request} {rest : List Request} {i : Instr} (h : s.requests = r :: rest)
    (hd : decode r = .ok i) : step s = exec i { s with requests := rest } := by
  simp only [step, fetch, h, hd]

theorem step_refuses {s : State} {r : Request} {rest : List Request} {e : DecodeError} (h : s.requests = r :: rest)
    (hd : decode r = .error e) : step s = .next (refuse { s with requests := rest }) := by
  simp only [step, fetch, h, hd]

theorem step_idle {s : State} (h : s.requests = []) : step s = .next s := by
  simp only [step, fetch, h]

/-- Settles O15, from `step_of_decode`; a well-formed operation's request decodes to it (O11). -/
theorem stepRunsTheDecodedRequest : Obligations.StepRunsTheDecodedRequest :=
  ⟨fun _ _ _ _ h hd => step_of_decode h hd,
    fun _ _ i hwf h => step_of_decode h (requestsAndOperationsCorrespond.1 i hwf)⟩

/-- Settles O16, from `step_refuses` and `step_idle`. -/
theorem stepAnswersWhatItCannotRun : Obligations.StepAnswersWhatItCannotRun :=
  ⟨fun _ _ _ _ h hd => step_refuses h hd, fun _ h => step_idle h⟩

/-! ### Reset, codes, the default register map -/

/-- Settles O17, by the fields of `State.reset`. -/
theorem resetLeavesTheFiveRegistersAtTheirValues : Obligations.ResetLeavesTheFiveRegistersAtTheirValues :=
  ⟨rfl, rfl, rfl, rfl, rfl, rfl, rfl⟩

/-- Settles O18, by the fields `resetBlock` sets. -/
theorem blockResetKeepsTheChipAndTheConfiguration : Obligations.BlockResetKeepsTheChipAndTheConfiguration :=
  fun _ => ⟨rfl, rfl, rfl, rfl, rfl, rfl, rfl, rfl, rfl, rfl⟩

/-- Settles O28, by evaluating the codes. -/
theorem codesAreAsListed : Obligations.CodesAreAsListed := ⟨rfl, rfl, rfl⟩

/-- The divisor of the opaque panel is in 1..255 (R330). -/
theorem defaultParams_pclkDiv_ne_zero : defaultParams.pclkDiv ≠ 0 := by
  intro h
  have hlt := Config.pclkDivLessOne.isLt
  have hval : (BitVec.ofNat 8 (Config.pclkDivLessOne.val + 1)).toNat = 0 := congrArg BitVec.toNat h
  rw [BitVec.toNat_ofNat] at hval
  omega

/-- Settles O19: the default map fits and the default divisor is not 0; the rest is read off `State.reset`. -/
theorem resetSatisfiesTheInvariant : Obligations.ResetSatisfiesTheInvariant :=
  ⟨rfl, by simp [SessionAgrees, State.reset], rfl, rfl, defaultParams_pclkDiv_ne_zero, regMapFits_default rfl⟩

/-- Settles O58: the addresses are those of `defaultRegMap`, which fits (`regMapFits_default`). -/
theorem theDefaultRegisterMapIsAsListed : Obligations.TheDefaultRegisterMapIsAsListed :=
  ⟨rfl, rfl, regMapFits_default rfl, fun p => by simp [regAddr, List.range_succ]⟩

end Sys2Proof.Proofs

/-! PROOFS. What serving an operation leaves (R32 to R40, R502): one record for every operation, from which the invariant
and the frames follow. -/

namespace Sys2Proof.Proofs

open Sys2Proof.Machine Sys2Proof.Laws Sys2Proof.Safety

/-- What every operation leaves of the state and what it answers: the registers its rule does not name are unchanged, the
parts of the invariant are kept, and the response is one its rule allows. -/
structure Served (i : Instr) (s t : State) : Prop where
  given    : t.given = s.given
  requests : t.requests = s.requests
  cursor   : writesCursor i = false → t.cursor = s.cursor
  session  : initializes i = false → t.initialized = s.initialized ∧ t.initState = s.initState
  debState : writesDebState i = false → t.debState = s.debState
  lastTag  : writesLastTag i = false → t.lastTag = s.lastTag
  aligned  : CursorAligned s → CursorAligned t
  agrees   : SessionAgrees s → SessionAgrees t
  wf       : Memory.wf s.mem = true → Memory.wf t.mem = true
  issued   : ∃ es, t.trace = s.trace ++ es ∧ (RegMapFits s.params → es.all (legalEvent s.params) = true)
  answer   : ∃ r : Response, t.response = some r ∧ r.result ∈ allowedResults i ∧
    (r.result = .refused → r.output = .none)

variable {i : Instr} {s t u : State} {r : Result} {o : Output}

theorem Served.params (h : Served i s t) : t.params = s.params := by rw [State.params, State.params, h.given]

/-- An operation that only appends and answers. -/
theorem served_of_onlyAppends (h : OnlyAppends s u) (hc : writesCursor i = true)
    (hr : r ∈ allowedResults i) (ho : r = .refused → o = .none) : Served i s (respond r o u) := by
  obtain ⟨hinit, hstate, hdeb, htag, hgiven⟩ := h.others
  exact {
    given := hgiven, requests := h.requests, cursor := fun hn => by simp [hc] at hn, session := fun _ => ⟨hinit, hstate⟩,
    debState := fun _ => hdeb, lastTag := fun _ => htag, aligned := h.cursor,
    agrees := fun hs => by simpa [SessionAgrees, hinit, hstate] using hs, wf := h.wf, issued := h.issued,
    answer := ⟨⟨r, o⟩, rfl, hr, ho⟩ }

/-- An operation that only uses the bus and answers. -/
theorem served_of_onlyBus (h : OnlyBus s u) (hr : r ∈ allowedResults i)
    (ho : r = .refused → o = .none) : Served i s (respond r o u) := by
  obtain ⟨hcur, hinit, hstate, hdeb, htag, hgiven⟩ := h.registers
  exact {
    given := hgiven, requests := h.requests, cursor := fun _ => hcur, session := fun _ => ⟨hinit, hstate⟩,
    debState := fun _ => hdeb, lastTag := fun _ => htag, aligned := fun hs => by simpa [CursorAligned, hcur] using hs,
    agrees := fun hs => by simpa [SessionAgrees, hinit, hstate] using hs, wf := h.wf, issued := h.issued,
    answer := ⟨⟨r, o⟩, rfl, hr, ho⟩ }

theorem ok_mem_allowedResults (i : Instr) : .ok ∈ allowedResults i := by cases i <;> simp [allowedResults]

/-- A refused request (R15). -/
theorem served_refuse (hr : .refused ∈ allowedResults i) : Served i s (refuse s) :=
  served_of_onlyBus (OnlyBus.refl s) hr fun _ => rfl

/-- An encoder answers and changes nothing else (O8). -/
theorem served_of_encodeWords {ws : List Word} (s : State) (h : encodeWords i = some ws) :
    ∃ t, exec i s = .next t ∧ Served i s t := by
  obtain ⟨w, -, he⟩ | ⟨-, he⟩ := encoderOperationsEmitTheEncodedWords i ws s h
  · exact ⟨_, he, served_of_onlyBus (OnlyBus.refl s) (ok_mem_allowedResults i) (by simp)⟩
  · exact ⟨_, he, served_of_onlyBus (OnlyBus.refl s) (ok_mem_allowedResults i) (by simp)⟩

/-- An append past its precondition: it passes, or fails on the transport. -/
theorem served_finish {run : Run} (h : OnlyAppends s (endOf run)) (hc : writesCursor i = true)
    (hcause : ∀ c t, run = .failed c t → c = .transport) (hfail : .fail .transport ∈ allowedResults i) : Served i s (finish .none .none run) := by
  cases run with
  | passed t => exact served_of_onlyAppends h hc (ok_mem_allowedResults i) (by simp)
  | failed c t => cases hcause c t rfl; exact served_of_onlyAppends h hc hfail (by simp)

theorem served_whenInitialized {op : State → State} (hr : .refused ∈ allowedResults i) (h : Served i s (op s)) :
    Served i s (whenInitialized op s) := by
  unfold whenInitialized
  split
  · exact h
  · exact served_refuse hr

/-- The end of the forced path, begun after bus transactions alone: Verified with cursor 0, or Failed with the cursor as
it was (R338, R339). -/
theorem finishInit_forcedSteps (o : Output) (h : OnlyBus (startInit s) u) :
    (∃ v, finishInit o (forcedSteps u) = respond .ok o v ∧ Verified (startInit s) v) ∨
    ∃ c v, finishInit o (forcedSteps u) = respond (.fail c) o (setInitState .failed v) ∧ OnlyProgress (startInit s) v := by
  obtain ⟨v, hrun, hv⟩ | ⟨c, v, hrun, hv⟩ := forcedSteps_cases u
  · exact .inl ⟨v, by rw [hrun, finishInit], h.onlyProgress.verified hv⟩
  · exact .inr ⟨c, v, by rw [hrun, finishInit], h.onlyProgress.trans hv⟩

theorem served_of_verified (h : Verified (startInit s) u) (hi : initializes i = true)
    (hc : writesCursor i = true) : Served i s (respond .ok o u) where
  given := h.given
  requests := h.requests
  cursor hn := by simp [hc] at hn
  session hn := by simp [hi] at hn
  debState _ := h.debState
  lastTag _ := h.lastTag
  aligned _ := by simp [CursorAligned, h.cursor]
  agrees _ := by simp [SessionAgrees, h.initialized, h.initState]
  wf := h.wf
  issued := h.issued
  answer := ⟨⟨.ok, o⟩, rfl, ok_mem_allowedResults i, by simp⟩

theorem served_of_failed {c : Cause} (h : OnlyProgress (startInit s) u) (hi : initializes i = true)
    (hr : .fail c ∈ allowedResults i) : Served i s (respond (.fail c) o (setInitState .failed u)) where
  given := h.given
  requests := h.requests
  cursor _ := h.cursor
  session hn := by simp [hi] at hn
  debState _ := h.debState
  lastTag _ := h.lastTag
  aligned hs := by simpa [CursorAligned, h.cursor, startInit] using hs
  agrees _ := by simp [SessionAgrees, h.initialized, startInit]
  wf := h.wf
  issued := h.issued
  answer := ⟨⟨.fail c, o⟩, rfl, hr, by simp⟩

/-- A probe that adopts a write pointer (R340). -/
theorem served_adopt {w : Word} (h : OnlyBus (startInit s) u) (hw : adoptable w = true) :
    Served .initProbe s (adopt w u) := by
  obtain ⟨-, -, -, hdeb, htag, hgiven⟩ := h.registers
  obtain ⟨hval, hmod⟩ := adoptable_spec hw
  exact {
    given := hgiven, requests := h.requests, cursor := fun hn => by simp [writesCursor] at hn,
    session := fun hn => by simp [initializes] at hn, debState := fun _ => hdeb, lastTag := fun _ => htag,
    aligned := fun _ => by simpa only [CursorAligned, adopt, respond_cursor, setInitState_cursor, setInitialized_cursor,
      setCursor_cursor, hval] using hmod,
    agrees := fun _ => by simp [SessionAgrees, adopt], wf := h.wf, issued := h.issued,
    answer := ⟨⟨.ok, .path .adopted⟩, rfl, by simp [allowedResults], by simp⟩ }

theorem served_finishInit (h : OnlyBus (startInit s) u) (hi : initializes i = true) (hc : writesCursor i = true)
    (hr : allowedResults i = [.ok, .fail .transport, .fail .verify]) : Served i s (finishInit o (forcedSteps u)) := by
  obtain ⟨v, he, hv⟩ | ⟨c, v, he, hv⟩ := finishInit_forcedSteps o h
  · exact he ▸ served_of_verified hv hi hc
  · exact he ▸ served_of_failed hv hi (by cases c <;> simp [hr])

theorem served_poll (h : OnlyBus s u) (t : Byte) : Served .buttonPoll s (poll t u) := by
  obtain ⟨hcur, hinit, hstate, -, -, hgiven⟩ := h.registers
  exact {
    given := hgiven, requests := h.requests, cursor := fun _ => hcur, session := fun _ => ⟨hinit, hstate⟩,
    debState := fun hn => by simp [writesDebState] at hn, lastTag := fun hn => by simp [writesLastTag] at hn,
    aligned := fun hs => by simpa [CursorAligned, poll, hcur] using hs,
    agrees := fun hs => by simpa [SessionAgrees, poll, hinit, hstate] using hs, wf := h.wf, issued := h.issued,
    answer := ⟨_, rfl, by simp [allowedResults], by simp⟩ }

theorem served_discard (s : State) :
    Served .discardActiveButton s (respond .ok .none (setDebState (discardState s.debState) s)) where
  given := rfl
  requests := rfl
  cursor _ := rfl
  session _ := ⟨rfl, rfl⟩
  debState hn := by simp [writesDebState] at hn
  lastTag _ := rfl
  aligned := id
  agrees := id
  wf := id
  issued := ⟨[], by simp, fun _ => rfl⟩
  answer := ⟨_, rfl, by simp [allowedResults], by simp⟩

theorem served_fifoEmptyAnswer (s : State) : Served .fifoEmpty s
    (fifoEmptyAnswer s.cursor (busRead (regAddr s.params .cmdRead) .w32 s) (afterRead (regAddr s.params .cmdRead) .w32 s)) := by
  have h := onlyBus_readReg .cmdRead .w32 s
  unfold fifoEmptyAnswer
  split
  · exact served_of_onlyBus h (by simp [allowedResults]) (by simp)
  · exact served_of_onlyBus h (by simp [allowedResults]) (by simp)

theorem served_readCoeffs (s : State) : Served .getTouchTransform s (readCoeffs transformRegs [] s) := by
  obtain ⟨u, h, ⟨cs, he, -⟩ | he⟩ := readCoeffs_cases transformRegs [] s
  · exact he ▸ served_of_onlyBus h (by simp [allowedResults]) (by simp)
  · exact he ▸ served_of_onlyBus h (by simp [allowedResults]) (by simp)

theorem served_coeffWrites (cs : List Int) (s : State)
    (hfail : .fail .transport ∈ allowedResults i) :
    Served i s (finish .none .none (tryWrites (coeffWrites s.params cs) s)) := by
  have h := onlyBus_tryWrites (coeffWrites s.params cs) s fun hp => coeffWrites_legal hp cs
  cases hrun : tryWrites (coeffWrites s.params cs) s with
  | passed t => rw [hrun] at h; exact served_of_onlyBus h (ok_mem_allowedResults i) (by simp)
  | failed c t => rw [hrun] at h; cases tryWrites_cause hrun; exact served_of_onlyBus h hfail (by simp)

/-- Every operation answers a next state, with what `Served` says of it. -/
theorem exec_served (i : Instr) (s : State) : ∃ t, exec i s = .next t ∧ Served i s t := by
  cases henc : encodeWords i with
  | some ws => exact served_of_encodeWords s henc
  | none =>
    cases i
    case writeWord w =>
      exact ⟨_, rfl, served_whenInitialized (by simp [allowedResults]) (served_finish (onlyAppends_append _ s) rfl
        (fun _ _ => append_cause) (by simp [allowedResults]))⟩
    case writeBuffer b =>
      exact ⟨_, rfl, served_whenInitialized (by simp [allowedResults]) (served_finish (onlyAppends_append b s) rfl
        (fun _ _ => append_cause) (by simp [allowedResults]))⟩
    case writeStringCmd h str =>
      refine ⟨_, rfl, ?_⟩
      split
      · exact served_refuse (by simp [allowedResults])
      · exact served_whenInitialized (by simp [allowedResults]) (served_finish (onlyAppends_appendString h str s) rfl
          (fun _ _ => appendString_cause) (by simp [allowedResults]))
    case fifoEmpty => exact ⟨_, rfl, served_whenInitialized (by simp [allowedResults]) (served_fifoEmptyAnswer s)⟩
    case initForced => exact ⟨_, rfl, served_finishInit (OnlyBus.refl _) rfl rfl rfl⟩
    case initProbe =>
      obtain ⟨u, h, he | ⟨w, hw, he⟩⟩ := initProbe_cases s
      · exact ⟨_, he, served_finishInit h rfl rfl rfl⟩
      · exact ⟨_, he, served_adopt h hw⟩
    case getTouchRawXy | getTouchScreenXy | getTouchTag =>
      exact ⟨_, rfl, served_of_onlyBus (onlyBus_readReg _ _ s) (by simp [allowedResults]) (by simp)⟩
    case getTouchTransform => exact ⟨_, rfl, served_readCoeffs s⟩
    case setTouchTransform =>
      exact ⟨_, rfl, served_coeffWrites _ s (by simp [allowedResults])⟩
    case buttonPoll => exact ⟨_, rfl, served_poll (onlyBus_readReg .touchTag .w8 s) _⟩
    case discardActiveButton => exact ⟨_, rfl, served_discard s⟩
    all_goals cases henc

theorem served_of_exec (h : exec i s = .next t) : Served i s t := by
  obtain ⟨u, hu, hs⟩ := exec_served i s
  rw [h] at hu
  cases hu
  exact hs

/-- A step either serves the oldest request, taken off the port, or changes the two ports at most. -/
theorem step_cases (h : step s = .next t) :
    (∃ i r rest, s.requests = r :: rest ∧ decode r = .ok i ∧ exec i { s with requests := rest } = .next t) ∨
    ((∀ i r rest, s.requests = r :: rest → decode r ≠ .ok i) ∧
      (t = s ∨ ∃ rest, t = refuse { s with requests := rest })) := by
  cases hreq : s.requests with
  | nil =>
    rw [step_idle hreq] at h
    cases h
    exact .inr ⟨by simp, .inl rfl⟩
  | cons r rest =>
    cases hd : decode r with
    | ok i => exact .inl ⟨i, r, rest, rfl, hd, step_of_decode hreq hd ▸ h⟩
    | error e =>
      rw [step_refuses hreq hd] at h
      cases h
      refine .inr ⟨fun i r' rest' hc => ?_, .inr ⟨rest, rfl⟩⟩
      cases hc
      simp [hd]

/-- Settles O20: what an operation is served with keeps each part of the invariant, and a step that serves none changes
the ports alone. -/
theorem everyStepKeepsTheInvariant : Obligations.EveryStepKeepsTheInvariant := by
  intro s t ⟨haligned, hagrees, hwf, hlegal, hdiv, hfits⟩ h
  obtain ⟨i, r, rest, -, -, he⟩ | ⟨-, rfl | ⟨rest, rfl⟩⟩ := step_cases h
  · have hserved := served_of_exec he
    have hparams : t.params = s.params := hserved.params
    obtain ⟨es, htrace, hes⟩ := hserved.issued
    refine ⟨hserved.aligned haligned, hserved.agrees hagrees, hserved.wf hwf, ?_, hparams ▸ hdiv, hparams ▸ hfits⟩
    rw [htrace, hparams, List.all_append, Bool.and_eq_true]
    exact ⟨hlegal, hes hfits⟩
  · exact ⟨haligned, hagrees, hwf, hlegal, hdiv, hfits⟩
  · exact ⟨haligned, hagrees, hwf, hlegal, hdiv, hfits⟩

/-- Settles O21, from `Served`; a step that serves no operation changes the ports alone. -/
theorem registersChangeOnlyThroughTheirOperations : Obligations.RegistersChangeOnlyThroughTheirOperations := by
  refine ⟨fun i s t h => ?_, fun s t h hnone => ?_⟩
  · have hs := served_of_exec h
    exact ⟨hs.given, hs.requests, hs.cursor, hs.session, hs.debState, hs.lastTag⟩
  · obtain ⟨i, r, rest, hreq, hd, -⟩ | ⟨-, rfl | ⟨rest, rfl⟩⟩ := step_cases h
    · exact absurd hd (hnone i r rest hreq)
    · exact ⟨rfl, rfl, rfl, rfl, rfl, rfl⟩
    · exact ⟨rfl, rfl, rfl, rfl, rfl, rfl⟩

/-- Settles O22, from `exec_served`. -/
theorem everyOperationEndsWithAResultItMayReturn : Obligations.EveryOperationEndsWithAResultItMayReturn := by
  intro i s
  obtain ⟨t, he, hs⟩ := exec_served i s
  obtain ⟨r, hresp, hallowed, hout⟩ := hs.answer
  exact ⟨t, r, he, hresp, hallowed, hout⟩

/-- Settles O23, from `Served` at the operation a step serves. -/
theorem stepIssuesOnlyLegalAccesses : Obligations.StepIssuesOnlyLegalAccesses := by
  intro s t hfits h
  obtain ⟨i, r, rest, -, -, he⟩ | ⟨-, rfl | ⟨rest, rfl⟩⟩ := step_cases h
  · obtain ⟨es, htrace, hes⟩ := (served_of_exec he).issued
    exact ⟨es, htrace, hes hfits⟩
  · exact ⟨[], by simp, rfl⟩
  · exact ⟨[], by simp [refuse], rfl⟩

end Sys2Proof.Proofs

/-! PROOFS. What an operation's events say of it (R14, R505, R507): the environment it used up, the bytes its writes may
have changed, and that a failed transaction is its last. -/

namespace Sys2Proof.Proofs

open Sys2Proof.Machine Sys2Proof.Laws Sys2Proof.Safety

variable {s t u : State} {es : List Event}

/-! ### Trails -/

/-- A write's bytes lie in the 24-bit space, so that none of its addresses wraps (log 6). -/
def inSpace : Event → Bool
  | .write a w _ _ => decide (a.toNat + widthBytes w ≤ addressSpace)
  | _ => true

theorem widthBytes_le (w : Width) : widthBytes w ≤ 4 := by cases w <;> decide

theorem inSpace_of_legal {p : Params} (hp : RegMapFits p) {e : Event} (h : legalEvent p e = true) :
    inSpace e = true := by
  cases e with
  | write a w v ok =>
    have hw := widthBytes_le w
    simp only [legalEvent, Bool.or_eq_true, Bool.and_eq_true, isRegister, List.any_eq_true, beq_iff_eq] at h
    simp only [inSpace, decide_eq_true_eq]
    unfold addressSpace
    rcases h with (⟨⟨r, -, rfl⟩, -⟩ | ⟨hf, -⟩) | ⟨hl, -⟩
    · have := regMapFits_place hp r
      omega
    · simp only [inFifo, Bool.and_eq_true, decide_eq_true_eq] at hf
      unfold cmdBase cmdSize at hf
      omega
    · simp only [inInitialList, Bool.or_eq_true, beq_iff_eq] at hl
      rcases hl with (rfl | rfl) | rfl <;> simp <;> omega
  | _ => rfl

/-- The machine has come from `s` to `t` by the events `es`: its transactions used up one action of the environment each,
and, with the chip quiet, a byte that no successful write of `es` stores to reads as before. -/
structure Trail (s : State) (es : List Event) (t : State) : Prop where
  trace : t.trace = s.trace ++ es
  ahead : ∀ k, envAt t k = envAt s (k + (es.filter isTransaction).length)
  frame : es.all inSpace = true → (∀ k, k < (es.filter isTransaction).length → (envAt s k).chip = []) →
    ∀ x, es.any (stores x) = false → Memory.get t.mem x = Memory.get s.mem x

/-- Nothing issued: registers and ports may have changed. -/
theorem trail_nil (htrace : t.trace = s.trace) (henv : t.env = s.env) (htick : t.tick = s.tick) (hmem : t.mem = s.mem) :
    Trail s [] t :=
  ⟨by simp [htrace], envAt_congr henv htick, fun _ _ x _ => by rw [hmem]⟩

theorem Trail.trans {es' : List Event} (h : Trail s es t) (h' : Trail t es' u) : Trail s (es ++ es') u where
  trace := by rw [h'.trace, h.trace, List.append_assoc]
  ahead k := by
    rw [h'.ahead, h.ahead, List.filter_append, List.length_append]
    congr 1
    omega
  frame hin hquiet x hx := by
    simp only [List.all_append, Bool.and_eq_true] at hin
    simp only [List.any_append, Bool.or_eq_false_iff] at hx
    simp only [List.filter_append, List.length_append] at hquiet
    rw [h'.frame hin.2 (fun k hk => by rw [h.ahead]; exact hquiet _ (by omega)) x hx.2,
      h.frame hin.1 (fun k hk => hquiet _ (by omega)) x hx.1]

/-- What stands on the response port leaves no trail. -/
theorem Trail.respond (h : Trail s es t) (r : Result) (o : Output) : Trail s es (respond r o t) :=
  ⟨h.trace, h.ahead, h.frame⟩

theorem trail_busWrite (a : Addr) (w : Width) (v : Word) (s : State) :
    Trail s [.write a w (truncTo w v) (busOk s)] (busWrite a w v s) where
  trace := by simp
  ahead k := by rw [List.filter_cons_of_pos rfl]; exact envAt_busWrite a w v s k
  frame hin hquiet x hx := by
    have hchip : (envNext s).chip = [] := by rw [envNext_eq]; exact hquiet 0 (by simp [isTransaction])
    simp only [busWrite_mem, envStep_mem, hchip, applyChip_nil]
    cases hok : busOk s with
    | false => rfl
    | true =>
      simp only [List.all_cons, List.all_nil, Bool.and_true, inSpace, decide_eq_true_eq] at hin
      simp only [hok, List.any_cons, List.any_nil, Bool.or_false, stores, Bool.and_eq_false_iff,
        decide_eq_false_iff_not] at hx
      exact get_store_outside _ _ _ (by simpa using hin) (by simp; omega)

theorem trail_envStep {e : Event} (he : isTransaction e = true) (s : State) : Trail s [e] (log e (envStep s)) where
  trace := by simp
  ahead k := by rw [List.filter_cons_of_pos he]; exact envAt_envStep s k
  frame _ hquiet x _ := by
    have hchip : (envNext s).chip = [] := by rw [envNext_eq]; exact hquiet 0 (by simp [he])
    simp [hchip]

theorem trail_sleep (d : Nat) (s : State) : Trail s [.sleep d] (sleep d s) :=
  ⟨by simp, fun k => by simp [isTransaction], fun _ _ _ _ => by simp⟩

/-! ### Failures come last -/

/-- Every transaction from `s` to `t` succeeded. -/
def Clean (s t : State) : Prop := ∃ es, Trail s es t ∧ ∀ e ∈ es, failedEvent e = false

/-- The last transaction from `s` to `t` failed, and no other. -/
def Broken (s t : State) : Prop :=
  ∃ es e, Trail s (es ++ [e]) t ∧ (∀ e ∈ es, failedEvent e = false) ∧ failedEvent e = true

/-- No transaction but the last one may have failed. -/
def NoEarlyFailure (s t : State) : Prop := Clean s t ∨ Broken s t

theorem clean_nil (htrace : t.trace = s.trace) (henv : t.env = s.env) (htick : t.tick = s.tick) (hmem : t.mem = s.mem) :
    Clean s t := ⟨[], trail_nil htrace henv htick hmem, by simp⟩

theorem Clean.trans (h : Clean s t) (h' : Clean t u) : Clean s u := by
  obtain ⟨es, ht, hes⟩ := h
  obtain ⟨es', ht', hes'⟩ := h'
  exact ⟨es ++ es', ht.trans ht', fun e he => (List.mem_append.mp he).elim (hes e) (hes' e)⟩

theorem Clean.broken (h : Clean s t) (h' : Broken t u) : Broken s u := by
  obtain ⟨es, ht, hes⟩ := h
  obtain ⟨es', e, ht', hes', he⟩ := h'
  exact ⟨es ++ es', e, by simpa using ht.trans ht', fun e he => (List.mem_append.mp he).elim (hes e) (hes' e), he⟩

/-- Registers and ports may change after the last transaction. -/
theorem Broken.trans_nil (h : Broken s t) (h' : Trail t [] u) : Broken s u := by
  obtain ⟨es, e, ht, hes⟩ := h
  exact ⟨es, e, by simpa using ht.trans h', hes⟩

theorem Clean.noEarlyFailure (h : Clean s t) (h' : NoEarlyFailure t u) : NoEarlyFailure s u :=
  h'.imp h.trans h.broken

theorem clean_of_event {e : Event} (h : Trail s [e] t) (he : failedEvent e = false) : Clean s t :=
  ⟨[e], h, by simpa using he⟩

theorem broken_of_event {e : Event} (h : Trail s [e] t) (he : failedEvent e = true) : Broken s t :=
  ⟨[], e, h, by simp, he⟩

theorem clean_sleep (d : Nat) (s : State) : Clean s (sleep d s) := clean_of_event (trail_sleep d s) rfl

section
variable {a : Addr} {w : Width} {v : Word}

theorem clean_busWrite (h : busOk s = true) : Clean s (busWrite a w v s) :=
  clean_of_event (trail_busWrite a w v s) (by simp [failedEvent, h])

theorem broken_busWrite (h : busOk s = false) : Broken s (busWrite a w v s) :=
  broken_of_event (trail_busWrite a w v s) (by simp [failedEvent, h])

theorem clean_afterRead (h : busOk s = true) : Clean s (afterRead a w s) :=
  clean_of_event (trail_envStep rfl s) (by simp [failedEvent, busRead, h])

theorem broken_afterRead (h : busOk s = false) : Broken s (afterRead a w s) :=
  broken_of_event (trail_envStep rfl s) (by simp [failedEvent, busRead, h])

theorem noEarlyFailure_afterRead : NoEarlyFailure s (afterRead a w s) := by
  cases h : busOk s with
  | true => exact .inl (clean_afterRead h)
  | false => exact .inr (broken_afterRead h)

end

/-- A run stops at its first failed transaction, and fails with `verify` after none; where it passes, `P` says which of
its transactions may have failed. -/
def Tracked (P : State → State → Prop) (s : State) : Run → Prop
  | .passed t => P s t
  | .failed .transport t => Broken s t
  | .failed .verify t => Clean s t

theorem tracked_andThen {P : State → State → Prop} {run : Run} {k : State → Run}
    (hP : ∀ {t u}, Clean s t → P t u → P s u) (h : Tracked Clean s run) (hk : ∀ t, Tracked P t (k t)) :
    Tracked P s (andThen run k) := by
  cases run with
  | failed c t => cases c <;> exact h
  | passed t =>
    have hkt := hk t
    rw [andThen_passed]
    cases hr : k t with
    | passed u => rw [hr] at hkt; exact hP h hkt
    | failed c u => rw [hr] at hkt; cases c; exacts [Clean.broken h hkt, Clean.trans h hkt]

theorem tracked_clean_andThen {run : Run} {k : State → Run} (h : Tracked Clean s run)
    (hk : ∀ t, Tracked Clean t (k t)) : Tracked Clean s (andThen run k) := tracked_andThen Clean.trans h hk

theorem tracked_tryWrite (a : Addr) (w : Width) (v : Word) (s : State) : Tracked Clean s (tryWrite a w v s) := by
  cases h : busOk s with
  | true => rw [tryWrite_ok h]; exact clean_busWrite h
  | false => rw [tryWrite_fail h]; exact broken_busWrite h

theorem tracked_tryHostCommand (c : Byte) (s : State) : Tracked Clean s (tryHostCommand c s) := by
  unfold tryHostCommand
  split
  case isTrue h => exact clean_of_event (trail_envStep rfl s) (by simp [failedEvent, h])
  case isFalse h => exact broken_of_event (trail_envStep rfl s) (by simp [failedEvent, h])

theorem tracked_tryRead {P : State → State → Prop} {a : Addr} {w : Width} {k : Word → State → Run}
    (hP : ∀ {t u}, Clean s t → P t u → P s u) (hk : ∀ v t, Tracked P t (k v t)) :
    Tracked P s (tryRead a w k s) := by
  have hread : tryRead a w k s = andThen
      (if busOk s then .passed (afterRead a w s) else .failed .transport (afterRead a w s)) (k (busValue a w s)) := by
    unfold tryRead
    split <;> rfl
  rw [hread]
  refine tracked_andThen hP ?_ (hk _)
  split
  case isTrue h => exact clean_afterRead h
  case isFalse h => exact broken_afterRead (by simpa using h)

theorem tracked_tryWrites (ws : List (Addr × Width × Word)) (s : State) : Tracked Clean s (tryWrites ws s) := by
  induction ws generalizing s with
  | nil => exact clean_nil rfl rfl rfl rfl
  | cons x ws ih => exact tracked_clean_andThen (tracked_tryWrite _ _ _ s) ih

/-! ### The operations' runs -/

theorem tracked_append (b : List Int) (s : State) : Tracked Clean s (append b s) := by
  refine tracked_clean_andThen (writeBytes_eq .. ▸ tracked_tryWrites _ s) fun t => ?_
  exact tracked_clean_andThen (run := .passed (setCursor _ t)) (clean_nil rfl rfl rfl rfl)
    fun u => tracked_tryWrite _ _ _ u

theorem tracked_appendWords (h : List Int) (s : State) : Tracked Clean s (appendWords h s) := by
  induction h generalizing s with
  | nil => exact clean_nil rfl rfl rfl rfl
  | cons w ws ih => exact tracked_clean_andThen (tracked_append _ s) ih

theorem tracked_appendString (h str : List Int) (s : State) : Tracked Clean s (appendString h str s) :=
  tracked_clean_andThen (tracked_appendWords h s) (tracked_append _)

theorem tracked_setInitState (x : InitState) (s : State) : Tracked Clean s (.passed (setInitState x s)) :=
  clean_nil rfl rfl rfl rfl

theorem clean_sleep_setInitState (x : InitState) (d : Nat) (s : State) : Clean s (setInitState x (sleep d s)) :=
  (clean_sleep d s).trans (clean_nil rfl rfl rfl rfl)

theorem tracked_checkId (s : State) : Tracked Clean s (checkId s) := by
  unfold checkId
  split
  · refine tracked_tryRead Clean.trans fun v t => ?_
    split <;> exact clean_nil rfl rfl rfl rfl
  · exact clean_nil rfl rfl rfl rfl

theorem tracked_stepActive (s : State) : Tracked Clean s (stepActive s) :=
  tracked_clean_andThen (tracked_tryHostCommand _ s) fun t =>
    tracked_clean_andThen (tracked_clean_andThen (run := .passed (sleep _ t)) (clean_sleep _ t) tracked_checkId)
      (tracked_setInitState _)

theorem noEarlyFailure_unmute (rs : List RegWrite) (s : State) : NoEarlyFailure s (unmute rs s) := by
  induction rs generalizing s with
  | nil => exact .inl (clean_nil rfl rfl rfl rfl)
  | cons r rs ih =>
    unfold unmute
    split
    case isTrue h => exact (clean_busWrite h).noEarlyFailure (ih _)
    case isFalse h => exact .inr (broken_busWrite (by simpa using h))

theorem NoEarlyFailure.setInitState (h : NoEarlyFailure s t) (x : InitState) : NoEarlyFailure s (setInitState x t) :=
  h.imp (·.trans (clean_nil rfl rfl rfl rfl)) (·.trans_nil (trail_nil rfl rfl rfl rfl))

theorem tracked_stepVerify (s : State) : Tracked NoEarlyFailure s (stepVerify s) := by
  refine tracked_tryRead Clean.noEarlyFailure fun g t => tracked_tryRead Clean.noEarlyFailure fun v u => ?_
  split
  · exact (clean_nil rfl rfl rfl rfl : Clean u (setCursor 0 (setInitialized u))).noEarlyFailure
      ((noEarlyFailure_unmute _ _).setInitState _)
  · exact clean_nil rfl rfl rfl rfl

theorem tracked_forcedSteps (s : State) : Tracked NoEarlyFailure s (forcedSteps s) :=
  tracked_andThen Clean.noEarlyFailure
    (tracked_clean_andThen
      (tracked_clean_andThen
        (tracked_clean_andThen
          (tracked_clean_andThen
            (tracked_clean_andThen (tracked_tryHostCommand _ s) fun t => clean_sleep_setInitState _ _ t)
            tracked_stepActive)
          fun t => tracked_clean_andThen (tracked_tryHostCommand _ t) fun u => clean_sleep_setInitState _ _ u)
        fun t => tracked_clean_andThen (tracked_tryWrites _ t) (tracked_setInitState _))
      fun t => tracked_clean_andThen (tracked_tryWrites _ t) (tracked_setInitState _))
    tracked_stepVerify

/-! ### Every operation -/

/-- The events `es` account for an operation's answer: R505 and R507 of the forced path and every other operation; of
INIT_PROBE, whose failed probe read is no failure (R340), that a transport failure is its last event. -/
structure Accounts (i : Instr) (t : State) (es : List Event) : Prop where
  early     : i ≠ .initProbe → ∀ e ∈ es.dropLast, failedEvent e = false
  transport : (∃ o, t.response = some ⟨.fail .transport, o⟩) → ∃ e, es.getLast? = some e ∧ failedEvent e = true
  verify    : i ≠ .initProbe → (∃ o, t.response = some ⟨.fail .verify, o⟩) → ∀ e ∈ es, failedEvent e = false

/-- The operation's events are a trail and account for its answer. -/
def Accounted (i : Instr) (s t : State) : Prop := ∃ es, Trail s es t ∧ Accounts i t es

variable {i : Instr} {r : Result} {o : Output}

theorem accounted_of_clean (h : Clean s u) (hr : r ≠ .fail .transport) : Accounted i s (respond r o u) := by
  obtain ⟨es, ht, hes⟩ := h
  refine ⟨es, ht.respond r o, fun _ e he => hes e (List.mem_of_mem_dropLast he), ?_, fun _ _ => hes⟩
  rintro ⟨o', ho'⟩
  cases ho'
  exact absurd rfl hr

theorem accounted_of_broken (h : Broken s u) (hr : r ≠ .fail .verify) : Accounted i s (respond r o u) := by
  obtain ⟨es, e, ht, hes, he⟩ := h
  refine ⟨es ++ [e], ht.respond r o, fun _ => by simpa using hes, fun _ => ⟨e, by simp, he⟩, ?_⟩
  rintro - ⟨o', ho'⟩
  cases ho'
  exact absurd rfl hr

theorem accounted_of_noEarlyFailure (h : NoEarlyFailure s u) : Accounted i s (respond .ok o u) :=
  h.elim (accounted_of_clean · (by simp)) (accounted_of_broken · (by simp))

theorem accounted_refuse (s : State) : Accounted i s (refuse s) :=
  accounted_of_clean (clean_nil rfl rfl rfl rfl) (by simp)

theorem accounted_whenInitialized {op : State → State} (h : Accounted i s (op s)) :
    Accounted i s (whenInitialized op s) := by
  unfold whenInitialized
  split
  · exact h
  · exact accounted_refuse s

theorem accounted_finish {o' : Output} {run : Run} (h : Tracked Clean s run) : Accounted i s (finish o o' run) := by
  cases run with
  | passed t => exact accounted_of_clean h (by simp)
  | failed c t =>
    cases c
    · exact accounted_of_broken h (by simp)
    · exact accounted_of_clean h (by simp)

theorem accounted_finishInit {run : Run} (h : Tracked NoEarlyFailure s run) : Accounted i s (finishInit o run) := by
  cases run with
  | passed t => exact accounted_of_noEarlyFailure h
  | failed c t =>
    cases c
    · exact accounted_of_broken (Broken.trans_nil h (trail_nil rfl rfl rfl rfl)) (by simp)
    · exact accounted_of_clean (Clean.trans h (clean_nil rfl rfl rfl rfl)) (by simp)

theorem accounted_fifoEmptyAnswer (s : State) : Accounted i s
    (fifoEmptyAnswer s.cursor (busRead (regAddr s.params .cmdRead) .w32 s) (afterRead (regAddr s.params .cmdRead) .w32 s)) := by
  cases h : busOk s with
  | true =>
    simp only [busRead, h, if_true, fifoEmptyAnswer]
    exact accounted_of_clean (clean_afterRead h) (by simp)
  | false =>
    simp only [busRead, h, fifoEmptyAnswer]
    exact accounted_of_broken (broken_afterRead h) (by simp)

/-- The coefficient reads pass with every one successful, or stop at the first that fails (R376). -/
theorem readCoeffs_trail (rs : List Reg) (cs : List Word) (s : State) :
    (∃ cs' u, readCoeffs rs cs s = respond .ok (.coeff cs') u ∧ Clean s u) ∨
      ∃ u, readCoeffs rs cs s = respond (.fail .transport) .none u ∧ Broken s u := by
  induction rs generalizing cs s with
  | nil => exact .inl ⟨cs, s, rfl, clean_nil rfl rfl rfl rfl⟩
  | cons r rs ih =>
    unfold readCoeffs
    split
    case isTrue h =>
      obtain ⟨cs', u, he, hu⟩ | ⟨u, he, hu⟩ := ih (cs ++ [busValue (regAddr s.params r) .w32 s])
        (afterRead (regAddr s.params r) .w32 s)
      · exact .inl ⟨cs', u, he, (clean_afterRead h).trans hu⟩
      · exact .inr ⟨u, he, (clean_afterRead h).broken hu⟩
    case isFalse h => exact .inr ⟨_, rfl, broken_afterRead (by simpa using h)⟩

theorem accounted_readCoeffs (rs : List Reg) (cs : List Word) (s : State) : Accounted i s (readCoeffs rs cs s) := by
  obtain ⟨cs', u, he, hu⟩ | ⟨u, he, hu⟩ := readCoeffs_trail rs cs s
  · exact he ▸ accounted_of_clean hu (by simp)
  · exact he ▸ accounted_of_broken hu (by simp)

/-- A probe from `s`, some of its reads failed or not, adopts a write pointer or takes the forced path (R340). -/
def ProbeEnds (s t : State) : Prop := ∃ es u, Trail s es u ∧ ((∃ w, t = adopt w u) ∨ t = probeForced u)

theorem Trail.probeEnds (h : Trail s es t) (h' : ProbeEnds t u) : ProbeEnds s u := by
  obtain ⟨es', v, hv, hend⟩ := h'
  exact ⟨es ++ es', v, h.trans hv, hend⟩

theorem probeEnds_probeRead {a : Addr} {w : Width} {good : Word → Bool} {k : Word → State → State}
    (hk : ∀ v t, ProbeEnds t (k v t)) : ProbeEnds s (probeRead a w good k s) := by
  have hread : Trail s _ (afterRead a w s) := trail_envStep rfl s
  obtain ⟨-, -, he⟩ | he := probeRead_cases a w good k s
  · exact he ▸ hread.probeEnds (hk _ _)
  · exact ⟨_, _, hread, .inr he⟩

theorem ProbeEnds.accounted (h : ProbeEnds s t) : Accounted .initProbe s t := by
  obtain ⟨es, u, hu, ⟨w, rfl⟩ | rfl⟩ := h
  · have hadopt : Trail u [] (adopt w u) := trail_nil rfl rfl rfl rfl
    refine ⟨es ++ [], hu.trans hadopt, fun h => absurd rfl h, ?_, fun h => absurd rfl h⟩
    rintro ⟨o, ho⟩
    cases ho
  · obtain ⟨es', ht, hacc⟩ := accounted_finishInit (i := .initProbe) (o := .path .forced) (tracked_forcedSteps u)
    refine ⟨es ++ es', hu.trans ht, fun h => absurd rfl h, fun hfail => ?_, fun h => absurd rfl h⟩
    obtain ⟨e, hlast, he⟩ := hacc.transport hfail
    exact ⟨e, by rw [List.getLast?_append, hlast]; rfl, he⟩

theorem exec_accounted (i : Instr) (s : State) : ∃ t, exec i s = .next t ∧ Accounted i s t := by
  cases henc : encodeWords i with
  | some ws =>
    have hclean : Clean s s := clean_nil rfl rfl rfl rfl
    obtain ⟨w, -, he⟩ | ⟨-, he⟩ := encoderOperationsEmitTheEncodedWords i ws s henc
    · exact ⟨_, he, accounted_of_clean hclean (by simp)⟩
    · exact ⟨_, he, accounted_of_clean hclean (by simp)⟩
  | none =>
    cases i
    case writeWord w => exact ⟨_, rfl, accounted_whenInitialized (accounted_finish (tracked_append _ s))⟩
    case writeBuffer b => exact ⟨_, rfl, accounted_whenInitialized (accounted_finish (tracked_append b s))⟩
    case writeStringCmd h str =>
      refine ⟨_, rfl, ?_⟩
      split
      · exact accounted_refuse s
      · exact accounted_whenInitialized (accounted_finish (tracked_appendString h str s))
    case fifoEmpty => exact ⟨_, rfl, accounted_whenInitialized (accounted_fifoEmptyAnswer s)⟩
    case initForced =>
      exact ⟨_, rfl, accounted_finishInit (run := andThen (.passed (startInit s)) forcedSteps)
        (tracked_andThen Clean.noEarlyFailure (clean_nil rfl rfl rfl rfl) tracked_forcedSteps)⟩
    case initProbe =>
      have hstart : Trail s [] (startInit s) := trail_nil rfl rfl rfl rfl
      have hadopt : ∀ w u, ProbeEnds u (adopt w u) := fun w u => ⟨[], u, trail_nil rfl rfl rfl rfl, .inl ⟨w, rfl⟩⟩
      exact ⟨_, rfl, (hstart.probeEnds (probeEnds_probeRead fun _ _ => probeEnds_probeRead fun _ _ =>
        probeEnds_probeRead hadopt)).accounted⟩
    case getTouchRawXy | getTouchScreenXy | getTouchTag =>
      exact ⟨_, rfl, accounted_of_noEarlyFailure noEarlyFailure_afterRead⟩
    case getTouchTransform => exact ⟨_, rfl, accounted_readCoeffs _ _ s⟩
    case setTouchTransform => exact ⟨_, rfl, accounted_finish (tracked_tryWrites _ s)⟩
    case buttonPoll =>
      refine ⟨_, rfl, accounted_of_noEarlyFailure ?_⟩
      exact noEarlyFailure_afterRead.imp (·.trans (clean_nil rfl rfl rfl rfl)) (·.trans_nil (trail_nil rfl rfl rfl rfl))
    case discardActiveButton => exact ⟨_, rfl, accounted_of_clean (clean_nil rfl rfl rfl rfl) (by simp)⟩
    all_goals cases henc

/-- The events an operation added to the trace are those it accounts for. -/
theorem trail_of_exec (h : exec i s = .next t) (htrace : t.trace = s.trace ++ es) : Trail s es t ∧ Accounts i t es := by
  obtain ⟨u, hu, es', ht, hacc⟩ := exec_accounted i s
  rw [h] at hu
  cases hu
  obtain rfl : es' = es := List.append_cancel_left (ht.trace.symm.trans htrace)
  exact ⟨ht, hacc⟩

/-- Settles O24, from `Accounts`. -/
theorem aFailureIsTheLastTransaction : Obligations.AFailureIsTheLastTransaction := by
  intro i s t es h htrace
  obtain ⟨-, hearly, htransport, hverify⟩ := trail_of_exec h htrace
  exact ⟨hearly, htransport, hverify⟩

/-- Settles O25, from the frame of the operation's trail; its accesses are legal, so no write wraps. -/
theorem memoryChangesOnlyByTheWritesIssued : Obligations.MemoryChangesOnlyByTheWritesIssued := by
  intro i s t es x hfits h htrace hquiet hx
  obtain ⟨es', htrace', hlegal⟩ := (served_of_exec h).issued
  obtain rfl : es' = es := List.append_cancel_left (htrace'.symm.trans htrace)
  have hin : es'.all inSpace = true :=
    List.all_eq_true.mpr fun e he => inSpace_of_legal hfits (List.all_eq_true.mp (hlegal hfits) e he)
  exact (trail_of_exec h htrace).1.frame hin hquiet x hx

/-- Settles O26: the write's one event, its bytes by `get_store_inside`, the frame by `get_store_outside`. -/
theorem aBusWriteStoresItsBytesLowFirst : Obligations.ABusWriteStoresItsBytesLowFirst := by
  intro a w v s hfit hquiet
  have hmem : (busWrite a w v s).mem =
      if (envAt s 0).ok then Memory.store s.mem a.toNat (leBytes (widthBytes w) v) else s.mem := by
    rw [busWrite_mem, envStep_mem, envNext_eq, hquiet, applyChip_nil, busOk_eq]
  refine ⟨by rw [busWrite_trace, busOk_eq], fun hok k hk => ?_, fun x hx => ?_⟩
  · rw [hmem, hok, if_pos rfl, get_store_inside _ _ _ k (by simpa using hk) (by simpa [addressSpace] using hfit), leBytes_getElem _ _ _ hk]
  · rw [hmem]
    cases hok : (envAt s 0).ok with
    | false => rfl
    | true => exact get_store_outside _ _ _ (by simpa [addressSpace] using hfit) (by simpa [hok] using hx)

/-- Settles O27, by the fields of `afterRead` and what a read yields (`busRead_eq`). -/
theorem aBusReadChangesNoByteAndNoRegister : Obligations.ABusReadChangesNoByteAndNoRegister := by
  intro a w s
  refine ⟨⟨rfl, rfl, rfl, rfl, rfl, rfl⟩, rfl, rfl, envStep_mem_eq s, ?_⟩
  rw [afterRead_trace, busRead_eq]

end Sys2Proof.Proofs

/-! PROOFS. The FIFO writer (R300 to R307): what each operation is past its precondition, and what a stream of appends
issues, up to its end or its first failure. -/

namespace Sys2Proof.Proofs

open Sys2Proof.Machine Sys2Proof.Laws Sys2Proof.Safety

variable {s t u : State}

theorem SameButCursor.trans (h : SameButCursor s t) (h' : SameButCursor t u) : SameButCursor s u := by
  obtain ⟨h1, h2, h3, h4, h5⟩ := h
  obtain ⟨h1', h2', h3', h4', h5'⟩ := h'
  exact ⟨h1'.trans h1, h2'.trans h2, h3'.trans h3, h4'.trans h4, h5'.trans h5⟩

theorem SameButCursor.params (h : SameButCursor s t) : t.params = s.params := by
  rw [State.params, State.params, h.2.2.2.2]

/-! ### The operations past their precondition -/

theorem whenInitialized_true {op : State → State} (h : s.initialized = true) : whenInitialized op s = op s := if_pos h

theorem whenInitialized_false {op : State → State} (h : s.initialized = false) :
    whenInitialized op s = { s with response := some ⟨.refused, .none⟩ } := if_neg (by simp [h])

theorem exec_writeBuffer (b : List Int) (h : s.initialized = true) :
    exec (.writeBuffer b) s = .next (finish .none .none (append b s)) :=
  congrArg Host.Outcome.next (whenInitialized_true h)

theorem exec_writeStringCmd {h : List Int} (str : List Int) (hne : h ≠ []) (hi : s.initialized = true) :
    exec (.writeStringCmd h str) s = .next (finish .none .none (appendString h str s)) := by
  have he : h.isEmpty = false := by simpa using hne
  change Host.Outcome.next (if h.isEmpty then _ else _) = _
  rw [he, if_neg (by decide), whenInitialized_true hi]

/-- Settles O36: the read's outcome decides the answer (`busRead_eq`). -/
theorem fifoEmptyComparesTheReadPointerWithTheCursor : Obligations.FifoEmptyComparesTheReadPointerWithTheCursor := by
  intro s h
  refine (congrArg Host.Outcome.next (whenInitialized_true h)).trans ?_
  rw [busRead_eq]
  cases (envAt s 0).ok with
  | false => rfl
  | true =>
    have hread : ∀ r : Word, readsEmpty s.cursor r = decide (r.toNat = s.cursor.toNat) := by
      intro r
      have hw : (s.cursor.setWidth 32).toNat = s.cursor.toNat := by
        rw [BitVec.toNat_setWidth]; have := s.cursor.isLt; omega
      rw [← hw, readsEmpty, beq_eq_decide]
      simp only [BitVec.toNat_inj]
    simp only [if_true, fifoEmptyAnswer, hread]
    rfl

/-- Settles O37: each operation is `whenInitialized`, WRITE_STRING_CMD behind its check of the header list. -/
theorem fifoOperationsAreRefusedBeforeInitialization : Obligations.FifoOperationsAreRefusedBeforeInitialization := by
  refine ⟨fun s h => ⟨fun w => ?_, fun b => ?_, fun hs str => ?_, ?_⟩, fun str s => rfl⟩
  · exact congrArg Host.Outcome.next (whenInitialized_false h)
  · exact congrArg Host.Outcome.next (whenInitialized_false h)
  · change Host.Outcome.next (if hs.isEmpty then _ else _) = _
    split
    · rfl
    · rw [whenInitialized_false h]
  · exact congrArg Host.Outcome.next (whenInitialized_false h)

/-! ### WRITE_BUFFER -/

/-- Settles O29, from `append_ok`. -/
theorem writeBufferAppendsAndPublishes : Obligations.WriteBufferAppendsAndPublishes := by
  intro b s hi hok
  obtain ⟨t, hrun, hcur, hsame, -, hreq, htrace, -⟩ := append_ok b s hok
  refine ⟨_, exec_writeBuffer b hi, ?_⟩
  rw [hrun]
  exact ⟨rfl, hcur ▸ advance_toNat _ _, hsame, hreq, by rw [finish, respond_trace, respond_cursor, hcur, htrace]⟩

/-- Settles O31, from `append_failsAt_byte`. -/
theorem writeBufferStopsAtAFailedByte : Obligations.WriteBufferStopsAtAFailedByte := by
  intro b s n hn hi hfail
  obtain ⟨t, hrun, hsame, htrace⟩ := append_failsAt_byte b s n hn hfail
  have he := exec_writeBuffer b hi
  rw [hrun] at he
  exact ⟨_, he, rfl, hsame, (served_of_exec he).requests, htrace⟩

/-- Settles O32, from `append_failsAt_publish`. -/
theorem writeBufferKeepsTheCursorAdvancedAfterAFailedPublish :
    Obligations.WriteBufferKeepsTheCursorAdvancedAfterAFailedPublish := by
  intro b s hi hfail
  obtain ⟨t, hrun, hcur, hsame, htrace⟩ := append_failsAt_publish b s hfail
  have he := exec_writeBuffer b hi
  rw [hrun] at he
  exact ⟨_, he, rfl, hcur ▸ advance_toNat _ _, hsame, (served_of_exec he).requests,
    by rw [finish, respond_trace, respond_cursor, hcur, htrace]⟩

/-! ### The ring's bytes -/

theorem leBytes_mask8 (v : Int) : leBytes 1 ((mask8 v).setWidth 32) = [mask8 v] := by
  simp [leBytes, BitVec.setWidth_setWidth_of_le]

theorem storeAll_fifoWrites_cons (m : Memory) (c : BitVec 12) (j : Nat) (v : Int) (b : List Int) :
    storeAll m (fifoWrites c j (v :: b)) =
      storeAll (Memory.set m (0x108000 + (c.toNat + j) % 4096) (mask8 v)) (fifoWrites c (j + 1) b) := by
  have hmod : (0x108000 + (c.toNat + j) % 4096) % addressSpace = 0x108000 + (c.toNat + j) % 4096 := by
    unfold addressSpace; omega
  simp only [storeAll, fifoWrites, List.foldl_cons, widthBytes, leBytes_mask8, Memory.store, fifoAddr_toNat, hmod]

/-- The byte writes of an append leave every address outside their ring places alone. -/
theorem get_storeAll_fifoWrites_other (m : Memory) (c : BitVec 12) (j : Nat) (b : List Int) {a : Nat}
    (h : ∀ k, k < b.length → a ≠ 0x108000 + (c.toNat + (j + k)) % 4096) :
    Memory.get (storeAll m (fifoWrites c j b)) a = Memory.get m a := by
  induction b generalizing m j with
  | nil => rfl
  | cons v b ih =>
    rw [storeAll_fifoWrites_cons, ih _ _ fun k hk => by
      have := h (k + 1) (by simpa using hk)
      rwa [show j + 1 + k = j + (k + 1) by omega]]
    exact get_set_other _ _ (h 0 (by simp))

/-- A ring place reads as the last element written there: none follows within one turn of the ring. -/
theorem get_storeAll_fifoWrites (m : Memory) (c : BitVec 12) (j : Nat) (b : List Int) (i : Nat) (hi : i < b.length)
    (hlast : b.length ≤ i + 4096) :
    Memory.get (storeAll m (fifoWrites c j b)) (0x108000 + (c.toNat + (j + i)) % 4096) = mask8 b[i] := by
  induction b generalizing m j i with
  | nil => simp at hi
  | cons v b ih =>
    rw [storeAll_fifoWrites_cons]
    simp only [List.length_cons] at hi hlast
    cases i with
    | zero =>
      rw [get_storeAll_fifoWrites_other _ _ _ _ fun k hk => by omega]
      exact get_set_same _ _ _
    | succ i =>
      have := ih (Memory.set m (0x108000 + (c.toNat + j) % 4096) (mask8 v)) (j + 1) i (by omega) (by omega)
      rwa [show j + 1 + i = j + (i + 1) by omega] at this

/-- The chip's space after an append that passes with the chip quiet: the bytes, then the published cursor. -/
theorem append_mem (b : List Int) (h : QuietFor (b.length + 1) s) (hrun : append b s = .passed t) :
    t.mem = Memory.store (storeAll s.mem (fifoWrites s.cursor 0 b)) (regAddr s.params .cmdWrite).toNat
      (leBytes 4 ((advance s.cursor b.length).setWidth 32)) := by
  have hq : QuietFor (fifoWrites s.cursor 0 b).length s := by rw [fifoWrites_length]; exact quietFor_mono h (by omega)
  obtain ⟨v, hw, -, hregs, -, -, hahead⟩ := tryWrites_ok _ s (okFor_of_quietFor hq)
  obtain ⟨-, -, -, -, -, hgiven⟩ := hregs
  have hv : QuietFor (0 + 1) (setCursor (advance s.cursor b.length) v) := by
    intro k hk
    rw [envAt_setCursor, hahead, fifoWrites_length]
    exact h _ (by omega)
  have hparams : v.params = s.params := by rw [State.params, State.params, hgiven]
  rw [append, writeBytes_eq, hw, andThen_passed, publish, tryWrite_ok (busOk_of_okFor (okFor_of_quietFor hv))] at hrun
  cases hrun
  rw [busWrite_mem_quiet _ _ _ hv, setCursor_mem, tryWrites_mem _ _ _ hq hw, setCursor_params, hparams]
  rfl

/-- Settles O30: the bytes by `get_storeAll_fifoWrites`; the publish goes to a register, below the ring. -/
theorem writeBufferStoresItsBytesAndNothingElse : Obligations.WriteBufferStoresItsBytesAndNothingElse := by
  intro b s t hi hquiet hfits he
  obtain ⟨v, hrun, -⟩ := append_ok b s (okFor_of_quietFor hquiet)
  rw [exec_writeBuffer b hi, hrun] at he
  cases he
  obtain ⟨-, -, hbelow⟩ := regMapFits_place hfits .cmdWrite
  have hspace : (regAddr s.params .cmdWrite).toNat + 4 ≤ addressSpace := by unfold addressSpace; omega
  rw [finish, respond_mem, append_mem b hquiet hrun]
  refine ⟨fun i hib hlast => ?_, ?_, fun a hring hreg => ?_⟩
  · rw [get_store_outside _ _ _ (by simpa using hspace) (by simp; omega)]
    have := get_storeAll_fifoWrites s.mem s.cursor 0 b i hib hlast
    rwa [Nat.zero_add] at this
  · have hcur := (advance s.cursor b.length).isLt
    rw [value_store_same _ _ _ _ hspace, BitVec.toNat_setWidth, advance_toNat]
    congr 1
    omega
  · rw [get_store_outside _ _ _ (by simpa using hspace) (by simpa using hreg)]
    exact get_storeAll_fifoWrites_other _ _ _ _ fun k hk => by simpa using hring k hk

/-! ### WRITE_WORD -/

theorem wordBytes_eq_fourBytes (w : Int) : wordBytes w = fourBytes w := by
  have := mask_lt 32 w
  simp only [wordBytes, leBytes, List.map_cons, List.map_nil, fourBytes, mask32, BitVec.toNat_setWidth,
    BitVec.toNat_ushiftRight, BitVec.toNat_ofNat, Nat.shiftRight_eq_div_pow]
  refine congrArg₂ _ ?_ (congrArg₂ _ ?_ (congrArg₂ _ ?_ (congrArg₂ _ ?_ rfl)))
  all_goals
    congr 1
    omega

/-- WRITE_WORD is WRITE_BUFFER of the word's four bytes, refusals and failures included (R304). -/
theorem exec_writeWord (w : Int) (s : State) : exec (.writeWord w) s = exec (.writeBuffer (fourBytes w)) s := by
  rw [← wordBytes_eq_fourBytes]
  rfl

/-- Settles O33: the aligned word's byte writes, from O29, never pass the wrap. -/
theorem writeWordAppendsFourBytesLowFirst : Obligations.WriteWordAppendsFourBytesLowFirst := by
  refine ⟨exec_writeWord, fun w s hi haligned hok => ?_⟩
  obtain ⟨t, he, hresp, hcur, hsame, hreq, htrace⟩ := writeBufferAppendsAndPublishes (fourBytes w) s hi hok
  have hround : roundUp4 (fourBytes w).length = 4 := by simp [fourBytes, roundUp4]
  refine ⟨t, (exec_writeWord w s).trans he, hresp, hround ▸ hcur, hsame, hreq, ?_⟩
  have hlt := s.cursor.isLt
  have hmask := mask_lt 32 w
  have hbyte : ∀ n : Nat, mask 8 (n : Int) = n % 256 := fun n => by rw [mask]; omega
  rw [htrace, publishEvent, hcur, hround]
  simp only [fourBytes, byteWrites, hbyte, List.cons_append, List.nil_append, List.append_cancel_left_eq, List.cons.injEq,
    Event.write.injEq, and_true, true_and]
  refine ⟨⟨?_, ?_⟩, ⟨?_, ?_⟩, ⟨?_, ?_⟩, ⟨?_, ?_⟩⟩
  all_goals
    congr 1
    omega

/-! ### Streams of appends -/

/-- Byte strings appended one after the other, each published on its own; the first failure stops the rest. -/
def appendAll : List (List Int) → State → Run
  | [], s => .passed s
  | b :: bs, s => andThen (append b s) (appendAll bs)

theorem appendAll_append (bs cs : List (List Int)) (s : State) :
    appendAll (bs ++ cs) s = andThen (appendAll bs s) (appendAll cs) := by
  induction bs generalizing s with
  | nil => rfl
  | cons b bs ih =>
    rw [List.cons_append, appendAll, appendAll]
    cases append b s with
    | passed t => exact ih t
    | failed c t => rfl

theorem appendWords_eq_appendAll (h : List Int) (s : State) : appendWords h s = appendAll (h.map fourBytes) s := by
  induction h generalizing s with
  | nil => rfl
  | cons w ws ih =>
    rw [appendWords, List.map_cons, appendAll, appendWord, wordBytes_eq_fourBytes]
    exact congrArg _ (funext ih)

/-- A string command is a stream: its header words, then its string and a zero byte (R305). -/
theorem appendString_eq_appendAll (h str : List Int) (s : State) :
    appendString h str s = appendAll (h.map fourBytes ++ [str ++ [0]]) s := by
  rw [appendAll_append, appendString, appendWords_eq_appendAll]
  congr 1
  funext t
  rw [appendAll]
  cases append (str ++ [0]) t <;> rfl

theorem streamEvents_cons (p : Params) (c : BitVec 12) (b : List Int) (bs : List (List Int)) :
    streamEvents p c (b :: bs) = appendEvents p c b ++ streamEvents p (advance c b.length) bs := rfl

theorem streamLength_cons (b : List Int) (bs : List (List Int)) :
    streamLength (b :: bs) = roundUp4 b.length + streamLength bs := by simp [streamLength]

theorem streamTransactions_cons (b : List Int) (bs : List (List Int)) :
    streamTransactions (b :: bs) = b.length + 1 + streamTransactions bs := by simp [streamTransactions]

theorem byteWrites_length (c : BitVec 12) (i : Nat) (b : List Int) : (byteWrites c i b).length = b.length := by
  rw [← writeEvents_fifoWrites, writeEvents, List.length_map, fifoWrites_length]

theorem appendEvents_length (p : Params) (c : BitVec 12) (b : List Int) : (appendEvents p c b).length = b.length + 1 := by
  simp [appendEvents, byteWrites_length]

/-- A stream whose transactions all succeed (R302, R307). -/
theorem appendAll_ok (bs : List (List Int)) (s : State) (h : OkFor (streamTransactions bs) s) :
    ∃ t, appendAll bs s = .passed t ∧ t.cursor.toNat = (s.cursor.toNat + streamLength bs) % 4096 ∧ SameButCursor s t ∧
      t.requests = s.requests ∧ t.trace = s.trace ++ streamEvents s.params s.cursor bs := by
  induction bs generalizing s with
  | nil =>
    have := s.cursor.isLt
    exact ⟨s, rfl, by simp [streamLength]; omega, ⟨rfl, rfl, rfl, rfl, rfl⟩, rfl, by simp [streamEvents]⟩
  | cons b bs ih =>
    rw [streamTransactions_cons] at h
    obtain ⟨t, hrun, hcur, hsame, -, hreq, htrace, hahead⟩ := append_ok b s (okFor_mono h (by omega))
    obtain ⟨u, hrun', hcur', hsame', hreq', htrace'⟩ := ih t fun k hk => by rw [hahead]; exact h _ (by omega)
    refine ⟨u, by rw [appendAll, hrun, andThen_passed, hrun'], ?_, SameButCursor.trans hsame hsame', hreq'.trans hreq, ?_⟩
    · rw [hcur', hcur, advance_toNat, streamLength_cons]
      omega
    · rw [htrace', htrace, SameButCursor.params hsame, hcur, streamEvents_cons, List.append_assoc]
      rfl

/-- The bytes by which a stream that stops at transaction `n` has advanced the cursor: an append counts from its publish
on, failed or not (D21). -/
def advancedBefore : List (List Int) → Nat → Nat
  | [], _ => 0
  | b :: bs, n =>
    if n < b.length then 0
    else roundUp4 b.length + if n = b.length then 0 else advancedBefore bs (n - (b.length + 1))

theorem byteWrites_getElem? (c : BitVec 12) (i : Nat) (b : List Int) (n : Nat) (hn : n < b.length) :
    (byteWrites c i b)[n]? = some (.write (fifoAddr c (i + n)) .w8 (BitVec.ofNat 32 (mask 8 b[n])) true) := by
  induction b generalizing i n with
  | nil => simp at hn
  | cons v b ih =>
    cases n with
    | zero => rfl
    | succ n =>
      have := ih (i + 1) n (by simpa using hn)
      rwa [Nat.add_assoc, Nat.add_comm 1 n] at this

theorem byteWrites_take (c : BitVec 12) (i n : Nat) (b : List Int) :
    (byteWrites c i b).take n = byteWrites c i (b.take n) := by
  induction b generalizing i n with
  | nil => simp [byteWrites]
  | cons v b ih => cases n <;> simp [byteWrites, ih]

/-- An append that stops at its transaction `n`: the events before it, and it in its failed form. -/
theorem append_failsAt (b : List Int) (s : State) (n : Nat) (hn : n ≤ b.length) (h : FailsAt n s) :
    ∃ t e, append b s = .failed .transport t ∧ SameButCursor s t ∧
      t.cursor.toNat = (s.cursor.toNat + if n < b.length then 0 else roundUp4 b.length) % 4096 ∧
      (appendEvents s.params s.cursor b)[n]? = some e ∧
      t.trace = s.trace ++ ((appendEvents s.params s.cursor b).take n ++ [failing e]) := by
  have hlen := byteWrites_length s.cursor 0 b
  by_cases hb : n < b.length
  · obtain ⟨t, hrun, ⟨hcur, hsame⟩, htrace⟩ := append_failsAt_byte b s n hb h
    have hget := byteWrites_getElem? s.cursor 0 b n hb
    rw [Nat.zero_add] at hget
    refine ⟨t, .write (fifoAddr s.cursor n) .w8 (BitVec.ofNat 32 (mask 8 b[n])) true, hrun, hsame, ?_, ?_, ?_⟩
    · have := s.cursor.isLt
      rw [hcur, if_pos hb]
      omega
    · rw [appendEvents, List.getElem?_append_left (by omega), hget]
    · rw [htrace, appendEvents, List.take_append_of_le_length (by omega), byteWrites_take]
      rfl
  · obtain rfl : n = b.length := by omega
    obtain ⟨t, hrun, hcur, hsame, htrace⟩ := append_failsAt_publish b s h
    refine ⟨t, publishEvent s.params (advance s.cursor b.length) true, hrun, hsame, ?_, ?_, ?_⟩
    · rw [hcur, advance_toNat, if_neg hb]
    · rw [appendEvents, List.getElem?_append_right (by omega), hlen, Nat.sub_self]
      rfl
    · rw [htrace, appendEvents, ← hlen, List.take_left]
      rfl

/-- A stream that stops at its transaction `n` (R302, R305, D21). -/
theorem appendAll_failsAt (bs : List (List Int)) (s : State) (n : Nat) (hn : n < streamTransactions bs)
    (h : FailsAt n s) :
    ∃ t e, appendAll bs s = .failed .transport t ∧ SameButCursor s t ∧
      t.cursor.toNat = (s.cursor.toNat + advancedBefore bs n) % 4096 ∧
      (streamEvents s.params s.cursor bs)[n]? = some e ∧
      t.trace = s.trace ++ ((streamEvents s.params s.cursor bs).take n ++ [failing e]) := by
  induction bs generalizing s n with
  | nil => simp [streamTransactions] at hn
  | cons b bs ih =>
    rw [streamTransactions_cons] at hn
    have hlen := appendEvents_length s.params s.cursor b
    by_cases hb : n ≤ b.length
    · obtain ⟨t, e, hrun, hsame, hcur, hget, htrace⟩ := append_failsAt b s n hb h
      refine ⟨t, e, by rw [appendAll, hrun, andThen_failed], hsame, ?_, ?_, ?_⟩
      · rw [hcur, advancedBefore]
        by_cases hlt : n < b.length
        · rw [if_pos hlt, if_pos hlt]
        · rw [if_neg hlt, if_neg hlt, if_pos (by omega), Nat.add_zero]
      · rw [streamEvents_cons, List.getElem?_append_left (by omega), hget]
      · rw [htrace, streamEvents_cons, List.take_append_of_le_length (by omega)]
    · obtain ⟨m, rfl⟩ : ∃ m, n = b.length + 1 + m := ⟨n - (b.length + 1), by omega⟩
      obtain ⟨t, hrun, hcur, hsame, -, -, htrace, hahead⟩ := append_ok b s (okFor_mono h.1 (by omega))
      have hfail : FailsAt m t := by
        refine ⟨fun k hk => ?_, ?_⟩
        · rw [hahead]; exact h.1 _ (by omega)
        · rw [hahead, Nat.add_comm]; exact h.2
      obtain ⟨u, e, hrun', hsame', hcur', hget, htrace'⟩ := ih t m (by omega) hfail
      rw [SameButCursor.params hsame, hcur] at hget htrace'
      refine ⟨u, e, by rw [appendAll, hrun, andThen_passed, hrun'], SameButCursor.trans hsame hsame', ?_, ?_, ?_⟩
      · rw [hcur', hcur, advance_toNat, advancedBefore, if_neg (by omega), if_neg (by omega),
          show b.length + 1 + m - (b.length + 1) = m by omega]
        omega
      · rw [streamEvents_cons, List.getElem?_append_right (by omega), hlen,
          show b.length + 1 + m - (b.length + 1) = m by omega, hget]
      · change t.trace = s.trace ++ appendEvents s.params s.cursor b at htrace
        rw [htrace', htrace, streamEvents_cons, ← hlen, List.take_length_add_append]
        simp only [List.append_assoc]

/-! ### WRITE_STRING_CMD -/

@[simp] theorem fourBytes_length (w : Int) : (fourBytes w).length = 4 := rfl

@[simp] theorem roundUp4_four : roundUp4 4 = 4 := rfl

theorem streamTransactions_stringCmd (h str : List Int) :
    streamTransactions (h.map fourBytes ++ [str ++ [0]]) = 5 * h.length + str.length + 2 := by
  induction h with
  | nil => simp [streamTransactions]
  | cons w ws ih =>
    rw [List.map_cons, List.cons_append, streamTransactions_cons, ih, fourBytes_length, List.length_cons]
    omega

theorem streamLength_stringCmd (h str : List Int) :
    streamLength (h.map fourBytes ++ [str ++ [0]]) = 4 * h.length + roundUp4 (str.length + 1) := by
  induction h with
  | nil => simp [streamLength]
  | cons w ws ih =>
    rw [List.map_cons, List.cons_append, streamLength_cons, ih, fourBytes_length, List.length_cons, roundUp4_four]
    omega

/-- What R305 says of the cursor where a string command stops at its transaction `n`. -/
theorem advancedBefore_stringCmd (h str : List Int) (n : Nat) (hn : n < 5 * h.length + str.length + 2) :
    advancedBefore (h.map fourBytes ++ [str ++ [0]]) n =
      if n < 5 * h.length then 4 * (n / 5) + (if n % 5 = 4 then 4 else 0)
      else 4 * h.length + (if n = 5 * h.length + str.length + 1 then roundUp4 (str.length + 1) else 0) := by
  induction h generalizing n with
  | nil =>
    simp only [List.map_nil, List.nil_append, advancedBefore, List.length_append, List.length_cons, List.length_nil,
      Nat.mul_zero, Nat.zero_add, Nat.not_lt_zero, if_false]
    simp only [List.length_nil] at hn
    split_ifs <;> omega
  | cons w ws ih =>
    simp only [List.length_cons] at hn ⊢
    rw [List.map_cons, List.cons_append, advancedBefore, fourBytes_length, roundUp4_four]
    by_cases h5 : n < 5
    · split_ifs <;> omega
    · rw [if_neg (by omega), if_neg (by omega), ih (n - 5) (by omega)]
      split_ifs <;> omega

/-- Settles O34: a string command is a stream (`appendString_eq_appendAll`) whose transactions all succeed. -/
theorem writeStringCmdAppendsHeaderThenString : Obligations.WriteStringCmdAppendsHeaderThenString := by
  intro h str s hne hi hok
  rw [← streamTransactions_stringCmd] at hok
  obtain ⟨t, hrun, hcur, hsame, hreq, htrace⟩ := appendAll_ok _ s hok
  refine ⟨_, exec_writeStringCmd str hne hi, ?_⟩
  rw [appendString_eq_appendAll, hrun]
  exact ⟨rfl, by rw [Nat.add_assoc, ← streamLength_stringCmd]; exact hcur, hsame, hreq, htrace⟩

/-- Settles O35: the stream stops at its transaction `n` (`appendAll_failsAt`). -/
theorem writeStringCmdStopsWhereItFails : Obligations.WriteStringCmdStopsWhereItFails := by
  intro h str s n hne hi hfail hn
  obtain ⟨t, e, hrun, hsame, hcur, hget, htrace⟩ :=
    appendAll_failsAt (h.map fourBytes ++ [str ++ [0]]) s n (by rw [streamTransactions_stringCmd]; exact hn) hfail
  rw [advancedBefore_stringCmd h str n hn] at hcur
  have he := exec_writeStringCmd str hne hi
  rw [appendString_eq_appendAll, hrun] at he
  exact ⟨_, he, rfl, hsame, (served_of_exec he).requests, hcur, e, hget, htrace⟩

/-! ### Requests in order -/

/-- A WRITE_WORD or WRITE_BUFFER request decodes to an append of its byte string (R302, R304). -/
theorem appended_spec {i : Instr} {b : List Int} (h : appended i = some b) :
    decode (encode i) = .ok i ∧ ∀ s : State, s.initialized = true → exec i s = .next (finish .none .none (append b s)) := by
  cases i
  case writeWord w =>
    cases h
    exact ⟨rfl, fun s hi => (exec_writeWord w s).trans (exec_writeBuffer _ hi)⟩
  case writeBuffer =>
    cases h
    exact ⟨rfl, fun s hi => exec_writeBuffer b hi⟩
  all_goals cases h

/-- Settles O38, by induction on the operations: each step appends the oldest request's bytes and leaves the cursor where
the next begins. -/
theorem appendsReachTheRingInTheCallersOrder : Obligations.AppendsReachTheRingInTheCallersOrder := by
  intro ops bs s rest hops hi hreq hok
  induction ops generalizing bs s with
  | nil =>
    obtain rfl : bs = [] := by simpa using hops.symm
    have := s.cursor.isLt
    exact ⟨s, rfl, hreq, ⟨rfl, rfl, rfl, rfl, rfl⟩, by simp [streamLength]; omega, by simp [streamEvents]⟩
  | cons i ops ih =>
    obtain ⟨b, bs, rfl⟩ : ∃ b cs, bs = b :: cs := by cases bs with
      | nil => simp at hops
      | cons b cs => exact ⟨b, cs, rfl⟩
    simp only [List.map_cons, List.cons.injEq] at hops
    obtain ⟨hdecode, hexec⟩ := appended_spec hops.1
    rw [streamTransactions_cons] at hok
    have hstep := step_of_decode (by simpa using hreq) hdecode
    rw [hexec { s with requests := ops.map encode ++ rest } hi] at hstep
    obtain ⟨t, hrun, hcur, hsame, -, htreq, htrace, hahead⟩ :=
      append_ok b { s with requests := ops.map encode ++ rest } (fun k hk => hok k (by omega))
    replace hcur : t.cursor = advance s.cursor b.length := hcur
    rw [hrun] at hstep
    obtain ⟨u, hsteps, hureq, husame, hucur, hutrace⟩ := ih bs (respond .ok .none t) hops.2 (hsame.1.trans hi) htreq
      fun k hk => by rw [envAt_respond, hahead]; exact hok _ (by omega)
    refine ⟨u, ?_, hureq, SameButCursor.trans (t := t) hsame husame, ?_, ?_⟩
    · simpa only [List.length_cons, runSteps, hstep, finish] using hsteps
    · rw [hucur, respond_cursor, hcur, advance_toNat, streamLength_cons]
      omega
    · rw [hutrace, respond_trace, htrace, respond_cursor, hcur, streamEvents_cons, respond_params,
        SameButCursor.params hsame, List.append_assoc]
      rfl

/-! ### The overrun precondition -/

/-- Whatever succeeds, a list of writes issues writes of the list alone. -/
theorem tryWrites_issues (ws : List (Addr × Width × Word)) (s : State) :
    ∃ es, (endOf (tryWrites ws s)).trace = s.trace ++ es ∧
      ∀ e ∈ es, ∃ x ∈ ws, ∃ ok, e = .write x.1 x.2.1 (truncTo x.2.1 x.2.2) ok := by
  induction ws generalizing s with
  | nil => exact ⟨[], by simp [tryWrites, endOf], by simp⟩
  | cons x ws ih =>
    obtain ⟨a, w, v⟩ := x
    have hwrite : (busWrite a w v s).trace = s.trace ++ [.write a w (truncTo w v) (busOk s)] := busWrite_trace a w v s
    cases hb : busOk s with
    | false =>
      rw [tryWrites, tryWrite_fail hb, andThen_failed, endOf]
      exact ⟨_, hwrite, by simp⟩
    | true =>
      obtain ⟨es, htrace, hes⟩ := ih (busWrite a w v s)
      rw [tryWrites, tryWrite_ok hb, andThen_passed]
      refine ⟨_ :: es, by rw [htrace, hwrite, List.append_assoc]; rfl, fun e he => ?_⟩
      rcases List.mem_cons.mp he with rfl | he
      · exact ⟨_, List.mem_cons_self, _, rfl⟩
      · obtain ⟨x, hx, hok⟩ := hes e he
        exact ⟨x, List.mem_cons_of_mem _ hx, hok⟩

theorem mem_fifoWrites {c : BitVec 12} {i : Nat} {b : List Int} {x : Addr × Width × Word} (h : x ∈ fifoWrites c i b) :
    ∃ k, k < b.length ∧ x.1 = fifoAddr c (i + k) := by
  induction b generalizing i with
  | nil => simp [fifoWrites] at h
  | cons v b ih =>
    rcases List.mem_cons.mp h with rfl | h
    · exact ⟨0, by simp, rfl⟩
    · obtain ⟨k, hk, hx⟩ := ih h
      exact ⟨k + 1, by simpa using hk, by rw [hx, Nat.add_assoc, Nat.add_comm 1]⟩

/-- Whatever succeeds, each byte write of an append goes to one of its ring places. -/
theorem append_byteWrites (b : List Int) (s : State) :
    ∃ es, (endOf (append b s)).trace = s.trace ++ es ∧
      ∀ a v ok, .write a .w8 v ok ∈ es → ∃ k, k < b.length ∧ a = fifoAddr s.cursor k := by
  obtain ⟨es, htrace, hes⟩ := tryWrites_issues (fifoWrites s.cursor 0 b) s
  have hbytes : ∀ a v ok, .write a .w8 v ok ∈ es → ∃ k, k < b.length ∧ a = fifoAddr s.cursor k := by
    intro a v ok he
    obtain ⟨x, hx, ok', hev⟩ := hes _ he
    obtain ⟨k, hk, hxa⟩ := mem_fifoWrites hx
    exact ⟨k, hk, by rw [(Event.write.inj hev).1, hxa, Nat.zero_add]⟩
  rw [append, writeBytes_eq]
  cases hrun : tryWrites (fifoWrites s.cursor 0 b) s with
  | failed c t =>
    rw [hrun] at htrace
    exact ⟨es, htrace, hbytes⟩
  | passed t =>
    rw [hrun] at htrace
    simp only [endOf] at htrace
    rw [andThen_passed, publish, endOf_tryWrite]
    refine ⟨es ++ _, by rw [busWrite_trace, setCursor_trace, htrace, List.append_assoc], fun a v ok he => ?_⟩
    rcases List.mem_append.mp he with he | he
    · exact hbytes a v ok he
    · simp at he

/-- Settles O39: the ring places of an append run from the cursor on, and by R606 stop short of the read pointer. -/
theorem anAppendThatFitsOverwritesNoPendingByte : Obligations.AnAppendThatFitsOverwritesNoPendingByte := by
  intro b readPtr s t es hr hfit he htrace a v ok hmem
  cases hi : s.initialized with
  | false =>
    change Host.Outcome.next (whenInitialized _ s) = _ at he
    rw [whenInitialized_false hi] at he
    cases he
    simp at htrace
    subst htrace
    cases hmem
  | true =>
    obtain ⟨es', htrace', hbytes⟩ := append_byteWrites b s
    have htr : t.trace = (endOf (append b s)).trace := by
      rw [exec_writeBuffer b hi] at he
      cases he
      cases append b s <;> rfl
    obtain rfl : es' = es := List.append_cancel_left (htrace'.symm.trans (htr.symm.trans htrace))
    obtain ⟨k, hk, rfl⟩ := hbytes a v ok hmem
    have hround := roundUp4_bounds b.length
    have hlt := s.cursor.isLt
    unfold NoOverrun at hfit
    rw [fifoAddr_toNat, Pending]
    omega

end Sys2Proof.Proofs

/-! PROOFS. The touch transform (R376, R377) and the debounce machine (R393 to R396). -/

namespace Sys2Proof.Proofs

open Sys2Proof.Machine Sys2Proof.Laws Sys2Proof.Safety

variable {s t u : State}

/-- Settles O48: the halves of the word read, put together again, are the word. -/
theorem aValidTouchSampleLosesNothing : Obligations.AValidTouchSampleLosesNothing := by
  have halves : ∀ v : Word, (v.extractLsb' 16 16).toNat * 2 ^ 16 + (v.extractLsb' 0 16).toNat = v.toNat := by
    intro v
    have := v.isLt
    simp only [BitVec.extractLsb'_toNat, Nat.shiftRight_eq_div_pow]
    omega
  intro s hok
  obtain ⟨hraw, hscreen⟩ := touchSamplesFollowTheSentinels s
  refine ⟨fun hne => ⟨_, _, _, hraw, ?_, halves _⟩, fun hne => ⟨_, _, _, hscreen, ?_, halves _⟩⟩
  · rw [if_pos ⟨hok, hne⟩]
    rfl
  · rw [if_pos ⟨hok, hne⟩]
    rfl

/-! ### Reading the transform -/

/-- The reads of registers as events, each with the value it yields. -/
def readEvents (p : Params) (rs : List Reg) (cs : List Word) : List Event :=
  List.zipWith (fun r c => .read (regAddr p r) .w32 (some c)) rs cs

theorem SameRegisters.trans (h : SameRegisters s t) (h' : SameRegisters t u) : SameRegisters s u := by
  obtain ⟨h1, h2, h3, h4, h5, h6⟩ := h
  obtain ⟨h1', h2', h3', h4', h5', h6'⟩ := h'
  exact ⟨h1'.trans h1, h2'.trans h2, h3'.trans h3, h4'.trans h4, h5'.trans h5, h6'.trans h6⟩

theorem sameRegisters_afterRead (a : Addr) (w : Width) (s : State) : SameRegisters s (afterRead a w s) :=
  ⟨rfl, rfl, rfl, rfl, rfl, rfl⟩

theorem afterRead_trace_ok {a : Addr} {w : Width} (h : busOk s = true) :
    (afterRead a w s).trace = s.trace ++ [.read a w (some (busValue a w s))] := by
  rw [afterRead_trace, busRead, if_pos h]

/-- The coefficient reads where every transaction succeeds: the values read are appended to those before (R376). -/
theorem readCoeffs_ok (rs : List Reg) (acc : List Word) (s : State) (h : OkFor rs.length s) :
    ∃ cs u, readCoeffs rs acc s = respond .ok (.coeff (acc ++ cs)) u ∧ cs.length = rs.length ∧ SameRegisters s u ∧
      u.requests = s.requests ∧ u.trace = s.trace ++ readEvents s.params rs cs ∧
      (QuietFor rs.length s → u.mem = s.mem ∧ cs = rs.map fun r => Memory.value s.mem (regAddr s.params r).toNat 4) := by
  induction rs generalizing acc s with
  | nil =>
    exact ⟨[], s, by simp [readCoeffs], rfl, ⟨rfl, rfl, rfl, rfl, rfl, rfl⟩, rfl, by simp [readEvents], fun _ => ⟨rfl, rfl⟩⟩
  | cons r rs ih =>
    have hb : busOk s = true := busOk_of_okFor h
    obtain ⟨cs, u, hrun, hlen, hsame, hreq, htrace, hquiet⟩ := ih (acc ++ [busValue (regAddr s.params r) .w32 s])
      (afterRead (regAddr s.params r) .w32 s) (okFor_of_shift (envAt_afterRead _ _ s) h)
    refine ⟨busValue (regAddr s.params r) .w32 s :: cs, u, ?_, by simp [hlen], SameRegisters.trans (sameRegisters_afterRead _ _ s) hsame,
      hreq, ?_, fun hq => ?_⟩
    · rw [readCoeffs, if_pos hb, hrun, List.append_assoc]
      rfl
    · rw [htrace, afterRead_trace_ok hb, afterRead_params, List.append_assoc]
      rfl
    · obtain ⟨hmem, hcs⟩ := hquiet (quietFor_of_shift (envAt_afterRead _ _ s) hq)
      have hs : (envStep s).mem = s.mem := envStep_mem_of_quietFor hq
      rw [afterRead_mem, hs] at hmem hcs
      exact ⟨hmem, by rw [hcs, List.map_cons, busValue, hs, afterRead_params]; rfl⟩

/-- The coefficient reads where read `n` is the first to fail (R376). -/
theorem readCoeffs_failsAt (rs : List Reg) (acc : List Word) (s : State) (n : Nat) (hn : n < rs.length) (h : FailsAt n s) :
    ∃ cs u, readCoeffs rs acc s = respond (.fail .transport) .none u ∧ cs.length = n ∧ SameRegisters s u ∧
      u.requests = s.requests ∧
      u.trace = s.trace ++ (readEvents s.params (rs.take n) cs ++ [.read (regAddr s.params rs[n]) .w32 none]) := by
  induction rs generalizing acc s n with
  | nil => simp at hn
  | cons r rs ih =>
    cases n with
    | zero =>
      have hb : busOk s = false := busOk_of_failsAt_zero h
      refine ⟨[], _, by rw [readCoeffs, if_neg (by simp [hb])], rfl, sameRegisters_afterRead _ _ s, rfl, ?_⟩
      rw [afterRead_trace, busRead, if_neg (by simp [hb])]
      rfl
    | succ n =>
      have hb : busOk s = true := busOk_of_okFor h.1
      obtain ⟨cs, u, hrun, hlen, hsame, hreq, htrace⟩ := ih (acc ++ [busValue (regAddr s.params r) .w32 s])
        (afterRead (regAddr s.params r) .w32 s) n (by simpa using hn) (failsAt_of_shift (envAt_afterRead _ _ s) h)
      refine ⟨busValue (regAddr s.params r) .w32 s :: cs, u, ?_, by simp [hlen],
        SameRegisters.trans (sameRegisters_afterRead _ _ s) hsame, hreq, ?_⟩
      · rw [readCoeffs, if_pos hb, hrun]
      · rw [htrace, afterRead_trace_ok hb, afterRead_params, List.append_assoc]
        rfl

/-- Settles O50, from `readCoeffs_ok` at the six transform registers. -/
theorem transformReadAnswersTheSixCoefficients : Obligations.TransformReadAnswersTheSixCoefficients := by
  intro s hok
  obtain ⟨cs, u, hrun, hlen, hsame, hreq, htrace, hquiet⟩ := readCoeffs_ok transformRegs [] s hok
  match cs, hlen with
  | [c0, c1, c2, c3, c4, c5], _ =>
    refine ⟨_, c0, c1, c2, c3, c4, c5, congrArg Host.Outcome.next hrun, rfl, hsame, hreq, htrace, fun hq => ?_⟩
    obtain ⟨hmem, hcs⟩ := hquiet hq
    simp only [transformRegs, List.map_cons, List.map_nil, List.cons.injEq, and_true] at hcs
    exact ⟨hmem, hcs⟩

theorem regAddr_transform (p : Params) (i : Nat) (hi : i < transformRegs.length) :
    regAddr p transformRegs[i] = regAddr p .touchTransformA + BitVec.ofNat 24 (4 * i) := by
  match i, hi with
  | 0, _ => simp [transformRegs]
  | 1, _ | 2, _ | 3, _ | 4, _ | 5, _ => rfl

/-- Settles O51, from `readCoeffs_failsAt` at the six transform registers. -/
theorem transformReadStopsAtAFailedRead : Obligations.TransformReadStopsAtAFailedRead := by
  intro s n hn hfail
  obtain ⟨cs, u, hrun, hlen, hsame, hreq, htrace⟩ := readCoeffs_failsAt transformRegs [] s n hn hfail
  refine ⟨_, cs, congrArg Host.Outcome.next hrun, rfl, hsame, hreq, hlen, ?_⟩
  rw [respond_trace, htrace, regAddr_transform _ n hn]
  congr 2
  refine List.ext_getElem (by simp [readEvents, transformRegs, hlen]; omega) fun i hi hi' => ?_
  have hi6 : i < transformRegs.length := by simp [transformRegs] at hi' ⊢; omega
  simpa [readEvents] using regAddr_transform s.params i hi6

/-! ### Writing the transform -/

theorem truncTo_w32 (v : Word) : truncTo .w32 v = v := by
  rw [truncTo, Nat.mod_eq_of_lt (by simpa [widthBytes] using v.isLt), BitVec.ofNat_toNat, BitVec.setWidth_eq]

theorem storeAll_cons (m : Memory) (x : Addr × Width × Word) (ws : List (Addr × Width × Word)) :
    storeAll m (x :: ws) = storeAll (Memory.store m x.1.toNat (leBytes (widthBytes x.2.1) x.2.2)) ws := rfl

theorem storeAll_append (m : Memory) (ws ws' : List (Addr × Width × Word)) :
    storeAll m (ws ++ ws') = storeAll (storeAll m ws) ws' := List.foldl_append

/-- The writes' bytes lie in the 24-bit space (log 6). -/
def WritesFit (ws : List (Addr × Width × Word)) : Prop := ∀ e ∈ ws, e.1.toNat + widthBytes e.2.1 ≤ addressSpace

theorem get_storeAll_outside (m : Memory) {ws : List (Addr × Width × Word)} {x : Nat} (hfit : WritesFit ws)
    (hx : ∀ e ∈ ws, x < e.1.toNat ∨ e.1.toNat + widthBytes e.2.1 ≤ x) :
    Memory.get (storeAll m ws) x = Memory.get m x := by
  induction ws generalizing m with
  | nil => rfl
  | cons e ws ih =>
    rw [storeAll_cons, ih _ (fun e he => hfit e (by simp [he])) fun e he => hx e (by simp [he])]
    exact get_store_outside _ _ _ (by simpa using hfit e (by simp)) (by simpa using hx e (by simp))

/-- A value none of the writes overlaps. -/
theorem value_storeAll_outside (m : Memory) {ws : List (Addr × Width × Word)} {a n : Nat} (hfit : WritesFit ws)
    (ha : a + n ≤ addressSpace) (h : ∀ e ∈ ws, a + n ≤ e.1.toNat ∨ e.1.toNat + widthBytes e.2.1 ≤ a) :
    Memory.value (storeAll m ws) a n = Memory.value m a n := by
  rw [Memory.value, load_congr _ m a n ha fun i hi =>
    get_storeAll_outside m hfit fun e he => by have := h e he; omega]
  rfl

/-- Writes of whole words that do not overlap each read back as their value. -/
theorem value_storeAll (m : Memory) {ws : List (Addr × Width × Word)} (hfit : WritesFit ws)
    (hwide : ∀ e ∈ ws, e.2.1 = .w32)
    (hapart : ws.Pairwise fun e f => e.1.toNat + 4 ≤ f.1.toNat ∨ f.1.toNat + 4 ≤ e.1.toNat) :
    ∀ e ∈ ws, Memory.value (storeAll m ws) e.1.toNat 4 = e.2.2 := by
  induction ws generalizing m with
  | nil => simp
  | cons x ws ih =>
    have hfit' : WritesFit ws := fun e he => hfit e (by simp [he])
    rw [List.pairwise_cons] at hapart
    intro e he
    rw [storeAll_cons]
    rcases List.mem_cons.mp he with rfl | he
    · have hw : e.2.1 = .w32 := hwide e (by simp)
      have hspace : e.1.toNat + widthBytes e.2.1 ≤ addressSpace := hfit e (by simp)
      rw [hw] at hspace
      change e.1.toNat + 4 ≤ addressSpace at hspace
      rw [value_storeAll_outside _ hfit' hspace fun f hf => by
        have := hapart.1 f hf
        rw [hwide f (by simp [hf])]
        exact this, hw, widthBytes, value_store_same _ _ _ _ hspace]
      exact truncTo_w32 e.2.2
    · exact ih _ hfit' (fun f hf => hwide f (by simp [hf])) hapart.2 e he

theorem writesFit_coeffWrites {p : Params} (hp : RegMapFits p) (cs : List Int) : WritesFit (coeffWrites p cs) := by
  intro e he
  unfold coeffWrites at he
  obtain ⟨i, hi, rfl⟩ := List.mem_iff_getElem.mp he
  have := regMapFits_place hp (transformRegs[i]'(by simp at hi; omega))
  rw [List.getElem_zipWith]
  unfold addressSpace
  simp only [widthBytes]
  omega

theorem coeffWrites_getElem (p : Params) (cs : List Int) (i : Nat) (h : i < (coeffWrites p cs).length)
    (hi : i < cs.length) :
    (coeffWrites p cs)[i] = (regAddr p .touchTransformA + BitVec.ofNat 24 (4 * i), .w32, mask32 cs[i]) := by
  have hregs : i < transformRegs.length := by simp [coeffWrites] at h; omega
  simp only [coeffWrites, List.getElem_zipWith, regAddr_transform p i hregs]

theorem coeffWrites_take (p : Params) (cs : List Int) (n : Nat) :
    (coeffWrites p cs).take n = coeffWrites p (cs.take n) := by
  refine List.ext_getElem (by simp [coeffWrites]; omega) fun i hi hi' => ?_
  simp [coeffWrites]

/-- The writes of SET_TOUCH_TRANSFORM as events: word `i` to `REG_TOUCH_TRANSFORM_A + 4*i` (R377). -/
theorem writeEvents_coeffWrites (p : Params) (cs : List Int) (h : cs.length ≤ 6) :
    writeEvents (coeffWrites p cs) =
      cs.mapIdx fun i c => wrote (regAddr p .touchTransformA + BitVec.ofNat 24 (4 * i)) .w32 (mask 32 c) := by
  refine List.ext_getElem (by simp [writeEvents, coeffWrites, transformRegs]; omega) fun i hi hi' => ?_
  simp only [writeEvents, List.getElem_map, List.getElem_mapIdx, coeffWrites_getElem p cs i _ (by simpa using hi'),
    truncTo_w32]
  rfl

/-- The transform registers do not wrap (R63, R65). -/
theorem transform_toNat {p : Params} (hp : RegMapFits p) (i : Nat) (hi : i < 6) :
    (regAddr p .touchTransformA + BitVec.ofNat 24 (4 * i)).toNat = (regAddr p .touchTransformA).toNat + 4 * i := by
  have := regMapFits_place hp .touchTransformA
  rw [BitVec.toNat_add, BitVec.toNat_ofNat]
  omega

theorem coeffWrites_apart {p : Params} (hp : RegMapFits p) (cs : List Int) :
    (coeffWrites p cs).Pairwise fun e f => e.1.toNat + 4 ≤ f.1.toNat ∨ f.1.toNat + 4 ≤ e.1.toNat := by
  rw [List.pairwise_iff_getElem]
  intro i j hi hj hij
  have hlen : (coeffWrites p cs).length ≤ 6 ∧ (coeffWrites p cs).length ≤ cs.length := by
    simp [coeffWrites, transformRegs]
  rw [coeffWrites_getElem p cs i hi (by omega), coeffWrites_getElem p cs j hj (by omega)]
  simp only [transform_toNat hp i (by omega), transform_toNat hp j (by omega)]
  omega

theorem exec_setTouchTransform (c0 c1 c2 c3 c4 c5 : Int) (s : State) :
    exec (.setTouchTransform c0 c1 c2 c3 c4 c5) s =
      .next (finish .none .none (tryWrites (coeffWrites s.params [c0, c1, c2, c3, c4, c5]) s)) := rfl

/-- Settles O53: the write list stops at its first failure (`tryWrites_failsAt`). -/
theorem transformWriteStopsAtAFailedWrite : Obligations.TransformWriteStopsAtAFailedWrite := by
  intro c0 c1 c2 c3 c4 c5 s n hn hfail
  have hcs : n < [c0, c1, c2, c3, c4, c5].length := hn
  have hws : n < (coeffWrites s.params [c0, c1, c2, c3, c4, c5]).length := hn
  obtain ⟨t, hrun, hsame, htrace⟩ := tryWrites_failsAt _ s n hws hfail
  have he := exec_setTouchTransform c0 c1 c2 c3 c4 c5 s
  rw [hrun] at he
  refine ⟨_, he, rfl, hsame, (served_of_exec he).requests, ?_⟩
  rw [finish, respond_trace, htrace, coeffWrites_take, writeEvents_coeffWrites _ _ (by simp),
    List.take_one_drop_eq_of_lt_length hcs, coeffWrites_getElem _ _ _ hws hcs, truncTo_w32]
  rfl

/-- Settles O52: the write list passes (`tryWrites_ok`); its words do not overlap, so each reads back. -/
theorem transformWriteStoresTheSixCoefficients : Obligations.TransformWriteStoresTheSixCoefficients := by
  intro c0 c1 c2 c3 c4 c5 s hok
  obtain ⟨t, hrun, htrace, hsame, -, hreq, -⟩ := tryWrites_ok (coeffWrites s.params [c0, c1, c2, c3, c4, c5]) s hok
  have he := exec_setTouchTransform c0 c1 c2 c3 c4 c5 s
  rw [hrun] at he
  refine ⟨_, he, rfl, hsame, hreq, ?_, fun hp hq => ?_⟩
  · rw [finish, respond_trace, htrace]
    simp only [writeEvents, coeffWrites, transformRegs, List.zipWith_cons_cons, List.zipWith_nil_left, List.map_cons,
      List.map_nil, truncTo_w32]
    rfl
  · have hfit := writesFit_coeffWrites hp [c0, c1, c2, c3, c4, c5]
    have hvalue := value_storeAll s.mem hfit (by simp [coeffWrites, transformRegs]) (coeffWrites_apart hp _)
    have hframe : ∀ a, (a < (regAddr s.params .touchTransformA).toNat ∨
        (regAddr s.params .touchTransformF).toNat + 4 ≤ a) →
        Memory.get (storeAll s.mem (coeffWrites s.params [c0, c1, c2, c3, c4, c5])) a = Memory.get s.mem a := by
      refine fun a ha => get_storeAll_outside _ hfit fun e hmem => ?_
      obtain ⟨i, hi, rfl⟩ := List.mem_iff_getElem.mp hmem
      have hF : (regAddr s.params .touchTransformF).toNat = (regAddr s.params .touchTransformA).toNat + 20 :=
        transform_toNat hp 5 (by decide)
      have hi6 : i < 6 := hi
      rw [coeffWrites_getElem _ _ _ hi hi6]
      simp only [transform_toNat hp i hi6, widthBytes]
      omega
    have hmem : t.mem = storeAll s.mem (coeffWrites s.params [c0, c1, c2, c3, c4, c5]) := tryWrites_mem _ s t hq hrun
    rw [← hmem] at hvalue hframe
    simp only [coeffWrites, transformRegs, List.zipWith_cons_cons, List.zipWith_nil_left, List.forall_mem_cons] at hvalue
    obtain ⟨h0, h1, h2, h3, h4, h5, -⟩ := hvalue
    exact ⟨h0, h1, h2, h3, h4, h5, hframe⟩

/-! ### Debounce -/

theorem exec_buttonPoll (s : State) : exec .buttonPoll s =
    .next (poll (if (envAt s 0).ok then Memory.get (memNext s) (regAddr s.params .touchTag).toNat else 0)
      (afterRead (regAddr s.params .touchTag) .w8 s)) := by
  rw [← tagOf_busRead]
  rfl

theorem exec_discardActiveButton (s : State) : exec .discardActiveButton s =
    .next (respond .ok .none (setDebState (discardState s.debState) s)) := rfl

theorem isReal_eq_true {t : Byte} : isReal t = true ↔ t ≠ 0 ∧ t ≠ 255 := by
  simp [isReal, noTag, untaggedIcon]

/-- Settles O54: the table's cell is `debStep`'s branch. -/
theorem buttonPollStepsTheDebounceTable : Obligations.ButtonPollStepsTheDebounceTable := by
  intro s t ht
  have cell : ∀ d e, debStep s.debState s.lastTag t = (d, e) → exec .buttonPoll s =
      .next (respond .ok (.event e) (setLastTag t (setDebState d (afterRead (regAddr s.params .touchTag) .w8 s)))) := by
    intro d e h
    rw [exec_buttonPoll, ← ht, poll, afterRead_debState, afterRead_lastTag, h]
  dsimp only
  rw [← isReal_eq_true]
  refine ⟨fun hd hr => ?_, fun hd hr => ?_, fun hd hr hl => ?_, fun hd hr hl => ?_, fun hd hr => ?_,
    fun hd hr hl => ?_, fun hd hr hl => ?_, fun hd hr => ?_, fun hd hr => ?_, fun hd hr => ?_⟩
  all_goals
    refine cell _ _ ?_
    clear cell ht
    rw [hd]
    simp_all [debStep, buttonReleased]

/-- Settles O55, by the cases of `discardState`. -/
theorem discardForcesDiscardFromAnyOtherState : Obligations.DiscardForcesDiscardFromAnyOtherState := by
  intro s
  rw [exec_discardActiveButton]
  cases h : s.debState <;> simp [discardState, respond, setDebState]

/-! ### Runs of polls and discards -/

/-- One operation of the debounce unit as its effect on DEB_STATE, LAST_TAG and the event: a poll of some tag, or a
discard. -/
inductive DebStep (s : State) : Bool → State → Prop
  | poll (u : State) (tag : Byte) (hd : u.debState = (debStep s.debState s.lastTag tag).1) (hl : u.lastTag = tag)
      (he : eventOf u = (debStep s.debState s.lastTag tag).2) : DebStep s true u
  | discard (u : State) (hd : u.debState = discardState s.debState) (he : eventOf u = 0) : DebStep s false u

theorem exec_debOperation (p : Bool) (s : State) : ∃ u, exec (debOperation p) s = .next u ∧ DebStep s p u := by
  cases p with
  | true => exact ⟨_, exec_buttonPoll s, .poll _ _ rfl rfl rfl⟩
  | false => exact ⟨_, exec_discardActiveButton s, .discard _ rfl rfl⟩

theorem debStates_cons (p : Bool) (ps : List Bool) (s : State) :
    ∃ u, debStates s (p :: ps) = u :: debStates u ps ∧ DebStep s p u := by
  obtain ⟨u, he, hu⟩ := exec_debOperation p s
  exact ⟨u, by rw [debStates, he], hu⟩

/-- Each state of a run comes from the one before, the first from the start, by the run's operation. -/
theorem debStates_getElem? {ps : List Bool} {k : Nat} (h : (debStates s ps)[k]? = some t) :
    ∃ v p, ps[k]? = some p ∧ DebStep v p t ∧
      (k = 0 ∧ v = s ∨ ∃ j, k = j + 1 ∧ (debStates s ps)[j]? = some v) := by
  induction ps generalizing s k with
  | nil => simp [debStates] at h
  | cons p ps ih =>
    obtain ⟨u, hrun, hu⟩ := debStates_cons p ps s
    rw [hrun] at h ⊢
    cases k with
    | zero =>
      cases h
      exact ⟨s, p, rfl, hu, .inl ⟨rfl, rfl⟩⟩
    | succ k =>
      obtain ⟨v, q, hq, hv, ⟨rfl, rfl⟩ | ⟨j, rfl, hj⟩⟩ := ih h
      · exact ⟨v, q, hq, hv, .inr ⟨0, rfl, rfl⟩⟩
      · exact ⟨v, q, hq, hv, .inr ⟨j + 1, rfl, hj⟩⟩

/-- The table outputs a press only in Debounce, for the tag read before, and goes to Detected (R393). -/
theorem debStep_press {d : DebState} {last tag : Byte} (h : isPress (debStep d last tag).2 = true) :
    d = .debounce ∧ tag = last ∧ debStep d last tag = (.detected, tag) := by
  have hrel : isPress buttonReleased = false := rfl
  have hzero : isPress 0 = false := rfl
  cases d <;> simp only [debStep] at h ⊢ <;> split_ifs at h ⊢ <;> simp_all

theorem DebStep.press {p : Bool} (h : DebStep s p t) (he : isPress (eventOf t) = true) :
    p = true ∧ s.debState = .debounce ∧ t.debState = .detected ∧ t.lastTag = eventOf t ∧ s.lastTag = eventOf t := by
  cases h with
  | discard _ hd he' =>
    rw [he'] at he
    exact absurd he (by decide)
  | poll _ tag hd hl he' =>
    rw [he'] at he
    obtain ⟨hdeb, rfl, hcell⟩ := debStep_press he
    rw [hcell] at hd he'
    exact ⟨rfl, hdeb, hd, hl.trans he'.symm, he'.symm⟩

/-- Debounce is left by every discard and entered by polls alone (R393, R396). -/
theorem DebStep.poll_of_debounce {p : Bool} (h : DebStep s p t) (hd : t.debState = .debounce) : p = true := by
  cases h with
  | poll => rfl
  | discard _ hdis =>
    rw [hd] at hdis
    cases hs : s.debState <;> rw [hs] at hdis <;> cases hdis

/-- Detected is left by a release event or a discard (R393, R396). -/
theorem DebStep.of_detected {p : Bool} (h : DebStep s p t) (hd : s.debState = .detected) :
    t.debState = .detected ∨ eventOf t = 254 ∨ p = false := by
  cases h with
  | discard => exact .inr (.inr rfl)
  | poll _ tag hd' hl he =>
    rw [hd] at hd' he
    simp only [debStep] at hd' he
    split_ifs at hd' he
    · exact .inl hd'
    · exact .inr (.inl he)
    · exact .inr (.inl he)

/-- Settles O56: a press comes from Debounce, which is not the start and which only a poll leaves behind. -/
theorem aPressNeedsTheSameTagOnTwoPolls : Obligations.APressNeedsTheSameTagOnTwoPolls := by
  intro s t ps k hs hk he
  obtain ⟨v, p, hp, hstep, hprev⟩ := debStates_getElem? hk
  obtain ⟨rfl, hdeb, -, htag, hlast⟩ := hstep.press he
  obtain ⟨rfl, rfl⟩ | ⟨j, rfl, hj⟩ := hprev
  · rw [hs] at hdeb
    cases hdeb
  · obtain ⟨w, q, hq, hstep', -⟩ := debStates_getElem? hj
    obtain rfl := hstep'.poll_of_debounce hdeb
    exact ⟨j, v, rfl, hj, hq, hp, htag, hlast⟩

/-- From Detected, a press is output only after a release or a discard. -/
theorem release_before_press {ps : List Bool} {i j : Nat} (hij : i < j) (hi : (debStates s ps)[i]? = some t)
    (hj : (debStates s ps)[j]? = some u) (ht : t.debState = .detected) (hu : isPress (eventOf u) = true) :
    ∃ k v, i < k ∧ k < j ∧ (debStates s ps)[k]? = some v ∧ (eventOf v = 254 ∨ ps[k]? = some false) := by
  induction hd : j - i generalizing i t with
  | zero => omega
  | succ d ih =>
    have hlen : i + 1 < (debStates s ps).length := by
      have := (List.getElem?_eq_some_iff.mp hj).1
      omega
    obtain ⟨v, hv⟩ : ∃ v, (debStates s ps)[i + 1]? = some v := ⟨_, List.getElem?_eq_getElem hlen⟩
    obtain ⟨w, p, hp, hstep, ⟨h0, -⟩ | ⟨m, hm, hw⟩⟩ := debStates_getElem? hv
    · omega
    · obtain rfl : i = m := by omega
      obtain rfl : t = w := Option.some.inj (hi.symm.trans hw)
      have hne : i + 1 ≠ j := by
        rintro rfl
        obtain rfl : v = u := Option.some.inj (hv.symm.trans hj)
        obtain ⟨-, hdeb, -⟩ := hstep.press hu
        rw [ht] at hdeb
        cases hdeb
      rcases hstep.of_detected ht with hdet | hrel
      · obtain ⟨k, x, hik, hkj, hx⟩ := ih (by omega) hv hdet (by omega)
        exact ⟨k, x, by omega, hkj, hx⟩
      · exact ⟨i + 1, v, by omega, by omega, hv, hrel.imp_right fun h => by rw [hp, h]⟩

/-- Settles O57: a press leaves the machine in Detected (`release_before_press`). -/
theorem betweenTwoPressesThereIsAReleaseOrADiscard : Obligations.BetweenTwoPressesThereIsAReleaseOrADiscard := by
  intro s t u ps i j hij hi hj ht hu
  obtain ⟨v, p, -, hstep, -⟩ := debStates_getElem? hi
  obtain ⟨-, -, hdet, -⟩ := hstep.press ht
  exact release_before_press hij hi hj hdet hu

end Sys2Proof.Proofs

/-! PROOFS. The initialization sequence (R331 to R341): each step of the forced path is a gate, which passes where its
transactions succeed and stops at the first that fails; the probe is a chain of reads before it. -/

namespace Sys2Proof.Proofs

open Sys2Proof.Machine Sys2Proof.Laws Sys2Proof.Safety

variable {s t u : State} {es : List Event} {n : Nat} {m m' : Memory}

/-- Settles O44, from everything the forced path and the probe can do (`finishInit_forcedSteps`, `initProbe_cases`). -/
theorem initializationEndsVerifiedOrFailed : Obligations.InitializationEndsVerifiedOrFailed := by
  intro s
  refine ⟨⟨_, rfl, ?_⟩, ?_⟩
  · obtain ⟨v, he, hv⟩ | ⟨c, v, he, hv⟩ := finishInit_forcedSteps .none (OnlyBus.refl (startInit s))
    · rw [he]
      exact ⟨⟨hv.debState, hv.lastTag, hv.given, hv.requests⟩, .inl ⟨rfl, hv.initState, hv.initialized, hv.cursor⟩⟩
    · rw [he]
      exact ⟨⟨hv.debState, hv.lastTag, hv.given, hv.requests⟩, .inr ⟨⟨c, rfl⟩, rfl, hv.initialized, hv.cursor⟩⟩
  · obtain ⟨u, h, he | ⟨w, hw, he⟩⟩ := initProbe_cases s
    · refine ⟨_, he, ?_⟩
      rw [probeForced]
      obtain ⟨v, hend, hv⟩ | ⟨c, v, hend, hv⟩ := finishInit_forcedSteps (.path .forced) h
      · rw [hend]
        exact ⟨⟨hv.debState, hv.lastTag, hv.given, hv.requests⟩,
          .inr (.inl ⟨rfl, hv.initState, hv.initialized, hv.cursor⟩)⟩
      · rw [hend]
        exact ⟨⟨hv.debState, hv.lastTag, hv.given, hv.requests⟩,
          .inr (.inr ⟨⟨c, rfl⟩, rfl, hv.initialized, hv.cursor⟩)⟩
    · obtain ⟨-, -, -, hdeb, htag, hgiven⟩ := h.registers
      obtain ⟨hval, hmod⟩ := adoptable_spec hw
      exact ⟨_, he, ⟨hdeb, htag, hgiven, h.requests⟩, .inl ⟨rfl, rfl, rfl, hval ▸ hmod⟩⟩

/-! ### The probe -/

theorem busValue_w8 (a : Addr) (s : State) : busValue a .w8 s = (Memory.get (memNext s) a.toNat).setWidth 32 := by
  rw [busValue, envStep_mem_eq]
  exact value_one _ _ a.isLt

theorem busValue_w32 (a : Addr) (s : State) : busValue a .w32 s = Memory.value (memNext s) a.toNat 4 := by
  rw [busValue, envStep_mem_eq]
  rfl

/-- The GPIO read succeeds and shows the display (R340). -/
theorem gpio_conclusive (s : State) (p : Params) :
    (busOk s && gpioShowsDisplay p (busValue (regAddr p .gpio) .w8 s)) = true ↔
      (envAt s 0).ok = true ∧ Memory.get (memNext s) (regAddr p .gpio).toNat &&& p.gpioDispMask = p.gpioDispMask := by
  rw [busValue_w8, gpioShowsDisplay_byte, busOk_eq, Bool.and_eq_true, decide_eq_true_iff]

/-- The pixel-clock read succeeds and yields the divisor (R340). -/
theorem pclk_conclusive (s : State) (p : Params) :
    (busOk s && pclkShowsDivisor p (busValue (regAddr p .pclk) .w8 s)) = true ↔
      (envAt s 0).ok = true ∧ Memory.get (memNext s) (regAddr p .pclk).toNat = p.pclkDiv := by
  rw [busValue_w8, pclkShowsDivisor_byte, busOk_eq, Bool.and_eq_true, decide_eq_true_iff]

/-- The write-pointer read succeeds and yields a pointer that may be adopted (R340). -/
theorem pointer_conclusive (s : State) (a : Addr) :
    (busOk s && adoptable (busValue a .w32 s)) = true ↔ (envAt s 0).ok = true ∧
      (Memory.value (memNext s) a.toNat 4).toNat < 4096 ∧ (Memory.value (memNext s) a.toNat 4).toNat % 4 = 0 := by
  rw [busValue_w32, busOk_eq, adoptable, Bool.and_eq_true, Bool.and_eq_true, decide_eq_true_iff, decide_eq_true_iff]
  rfl

theorem probeRead_startInit_of_good {a : Addr} {w : Width} {good : Word → Bool} {k : Word → State → State}
    (h : (busOk s && good (busValue a w s)) = true) :
    probeRead a w good k (startInit s) = k (busValue a w s) (startInit (afterRead a w s)) := if_pos h

theorem probeRead_startInit_of_not_good {a : Addr} {w : Width} {good : Word → Bool} {k : Word → State → State}
    (h : ¬ (busOk s && good (busValue a w s)) = true) :
    probeRead a w good k (startInit s) = probeForced (startInit (afterRead a w s)) := if_neg h

theorem exec_initForced (s : State) : exec .initForced s = .next (finishInit .none (forcedSteps (startInit s))) := rfl

theorem exec_initProbe (s : State) : exec .initProbe s =
    .next (probeRead (regAddr s.params .gpio) .w8 (gpioShowsDisplay s.params)
      (fun _ => probeRead (regAddr s.params .pclk) .w8 (pclkShowsDivisor s.params)
        (fun _ => probeRead (regAddr s.params .cmdWrite) .w32 adoptable adopt)) (startInit s)) := rfl

/-- The forced path under INIT_PROBE ends as under INIT_FORCED, with the path as its output (R340). -/
theorem probeForced_like_forced (u : State) : ∃ (t : State) (r : Result), exec .initForced u = .next t ∧
    t.response = some ⟨r, .none⟩ ∧ probeForced (startInit u) = { t with response := some ⟨r, .path .forced⟩ } := by
  rw [exec_initForced, probeForced]
  cases forcedSteps (startInit u) with
  | passed t => exact ⟨_, .ok, rfl, rfl, rfl⟩
  | failed c t => exact ⟨_, .fail c, rfl, rfl, rfl⟩

/-- Settles O46: each inconclusive read takes `probeForced` from the state after it. -/
theorem anInconclusiveProbeRunsTheForcedPath : Obligations.AnInconclusiveProbeRunsTheForcedPath := by
  rintro s s1 s2 s3 rfl rfl rfl
  dsimp only
  have forced : ∀ u, exec .initProbe s = .next (probeForced (startInit u)) →
      ∃ (t : State) (r : Result), exec .initForced u = .next t ∧ t.response = some ⟨r, .none⟩ ∧
        exec .initProbe s = .next { t with response := some ⟨r, .path .forced⟩ } := by
    intro u h
    obtain ⟨t, r, he, hr, hp⟩ := probeForced_like_forced u
    exact ⟨t, r, he, hr, by rw [h, hp]⟩
  refine ⟨fun hg => ?_, fun hg hp => ?_, fun hg hp hw => ?_⟩
  · refine forced _ ?_
    rw [exec_initProbe, probeRead_startInit_of_not_good (by rwa [gpio_conclusive])]
  · refine forced _ ?_
    rw [exec_initProbe, probeRead_startInit_of_good ((gpio_conclusive s s.params).mpr hg),
      probeRead_startInit_of_not_good (by rwa [pclk_conclusive])]
  · refine forced _ ?_
    rw [exec_initProbe, probeRead_startInit_of_good ((gpio_conclusive s s.params).mpr hg),
      probeRead_startInit_of_good ((pclk_conclusive _ s.params).mpr hp),
      probeRead_startInit_of_not_good (by rwa [pointer_conclusive])]

/-! ### Reads of a quiet chip -/

theorem reached_busOk (h : Reached s es n m t) (q : (envAt s n).ok = true) : busOk t = true := by
  rw [busOk_eq, h.ahead, Nat.zero_add, q]

theorem reached_busValue (h : Reached s es n m t) (a : Addr) (w : Width) :
    busValue a w t = Memory.value (Memory.applyChip m (envAt s n).chip) a.toNat (widthBytes w) := by
  rw [busValue, h.memAhead]

theorem reached_busValue_byte (h : Reached s es n m t) (a : Addr) :
    busValue a .w8 t = (Memory.get (Memory.applyChip m (envAt s n).chip) a.toNat).setWidth 32 := by
  rw [reached_busValue h]
  exact value_one _ _ a.isLt

/-- A successful read, its value what the chip holds after its own changes. -/
theorem reached_read_ok (h : Reached s es n m t) (a : Addr) (w : Width) (q : (envAt s n).ok = true) :
    Reached s (es ++ [.read a w (some (busValue a w t))]) (n + 1) (Memory.applyChip m (envAt s n).chip)
      (afterRead a w t) := by
  have hread := h.read a w
  rwa [if_pos q, ← reached_busValue h] at hread

/-- A conclusive probe read of a quiet chip. -/
theorem probeRead_quiet {a : Addr} {w : Width} {good : Word → Bool} {k : Word → State → State}
    (h : Reached s es n m t) (q : QuietFor (n + 1) s)
    (hgood : good (Memory.value m a.toNat (widthBytes w)) = true) :
    probeRead a w good k t = k (Memory.value m a.toNat (widthBytes w)) (afterRead a w t) ∧
      Reached s (es ++ [.read a w (some (Memory.value m a.toNat (widthBytes w)))]) (n + 1) m (afterRead a w t) := by
  obtain ⟨hok, hchip⟩ := q n n.lt_succ_self
  have hvalue := reached_busValue h a w
  have hread := reached_read_ok h a w hok
  rw [hchip, applyChip_nil] at hvalue hread
  rw [hvalue] at hread
  exact ⟨by rw [probeRead, hvalue, reached_busOk h hok, hgood]; rfl, hread⟩

/-- Settles O45: three conclusive reads of a quiet chip adopt the pointer. -/
theorem initProbeAdoptsARunningDisplay : Obligations.InitProbeAdoptsARunningDisplay := by
  intro s w q hgpio hpclk hw hlt hmod
  have byte : ∀ r, Memory.value s.mem (regAddr s.params r).toNat (widthBytes .w8) =
      (Memory.get s.mem (regAddr s.params r).toNat).setWidth 32 := fun r => value_one _ _ (regAddr s.params r).isLt
  have hword : Memory.value s.mem (regAddr s.params .cmdWrite).toNat (widthBytes .w32) = BitVec.ofNat 32 w := by
    rw [← hw, BitVec.ofNat_toNat, BitVec.setWidth_eq]
    rfl
  obtain ⟨e₁, r₁⟩ := probeRead_quiet (a := regAddr s.params .gpio) (w := .w8) (good := gpioShowsDisplay s.params)
    (k := fun _ => probeRead (regAddr s.params .pclk) .w8 (pclkShowsDivisor s.params)
      (fun _ => probeRead (regAddr s.params .cmdWrite) .w32 adoptable adopt))
    (reached_start s) (fun i hi => q i (by omega)) (by rw [byte, gpioShowsDisplay_byte, decide_eq_true_iff]; exact hgpio)
  obtain ⟨e₂, r₂⟩ := probeRead_quiet (a := regAddr s.params .pclk) (w := .w8) (good := pclkShowsDivisor s.params)
    (k := fun _ => probeRead (regAddr s.params .cmdWrite) .w32 adoptable adopt)
    r₁ (fun i hi => q i (by omega)) (by rw [byte, pclkShowsDivisor_byte, decide_eq_true_iff]; exact hpclk)
  obtain ⟨e₃, r₃⟩ := probeRead_quiet (a := regAddr s.params .cmdWrite) (w := .w32) (good := adoptable) (k := adopt)
    r₂ (fun i hi => q i (by omega)) (by
      rw [hword, adoptable, Bool.and_eq_true, decide_eq_true_iff, decide_eq_true_iff, BitVec.toNat_ofNat,
        Nat.mod_eq_of_lt (by omega)]
      exact ⟨hlt, hmod⟩)
  rw [hword] at e₃ r₃
  rw [byte, byte, hpclk] at r₃
  refine ⟨_, congrArg Host.Outcome.next (e₁.trans (e₂.trans e₃)), rfl, ?_, rfl, rfl, r₃.debState, r₃.lastTag, r₃.given, r₃.requests,
    r₃.mem, r₃.trace⟩
  change (BitVec.ofNat 12 (BitVec.ofNat 32 w).toNat).toNat = w
  simp only [BitVec.toNat_ofNat]
  omega

end Sys2Proof.Proofs

/-! PROOFS. The forced path (R331 to R339) as a sequence of gates: a gate passes where its transactions succeed with the
chip quiet, and stops at the first that fails; gates compose, and steps 1 to 5 are one. -/

namespace Sys2Proof.Proofs

open Sys2Proof.Machine Sys2Proof.Laws Sys2Proof.Safety

variable {s t : State} {k k' : State → Run} {es es' es₀ before : List Event} {e : Event} {n j : Nat} {m m' m'' : Memory}

/-! ### Traces cut at a transaction -/

/-- How many bus transactions a trace holds. -/
def txCount (es : List Event) : Nat := (es.filter isTransaction).length

theorem txCount_append (es es' : List Event) : txCount (es ++ es') = txCount es + txCount es' := by
  simp [txCount]

theorem txCount_hostCommand (c : Byte) (ok : Bool) (es : List Event) :
    txCount (.hostCommand c ok :: es) = txCount es + 1 := rfl

theorem txCount_sleep (d : Nat) (es : List Event) : txCount (.sleep d :: es) = txCount es := rfl

theorem txCount_nil : txCount [] = 0 := rfl

theorem txCount_of_all (h : ∀ e ∈ es, isTransaction e = true) : txCount es = es.length := by
  rw [txCount, List.filter_eq_self.mpr h]

/-- The trace `es` reads `before`, then `e`, which is its transaction number `j`. -/
def CutAt (es : List Event) (j : Nat) (before : List Event) (e : Event) : Prop :=
  (∃ after, es = before ++ e :: after) ∧ isTransaction e = true ∧ txCount before = j

theorem CutAt.append_right (h : CutAt es j before e) (es' : List Event) : CutAt (es ++ es') j before e := by
  obtain ⟨⟨after, rfl⟩, htx, hcount⟩ := h
  exact ⟨⟨after ++ es', by simp⟩, htx, hcount⟩

theorem CutAt.append_left (h : CutAt es j before e) (es' : List Event) :
    CutAt (es' ++ es) (txCount es' + j) (es' ++ before) e := by
  obtain ⟨⟨after, rfl⟩, htx, rfl⟩ := h
  exact ⟨⟨after, by simp⟩, htx, txCount_append _ _⟩

/-- A trace of transactions alone is cut at an index. -/
theorem cutAt_of_all (h : ∀ e ∈ es, isTransaction e = true) (hj : j < es.length) : CutAt es j (es.take j) es[j] :=
  ⟨⟨es.drop (j + 1), by simp⟩, h _ (List.getElem_mem hj), by
    rw [txCount_of_all fun e he => h e (List.mem_of_mem_take he), List.length_take, Nat.min_eq_left hj.le]⟩

/-! ### Gates -/

/-- The sequence begun in `s` has stopped in `t` before success, its trace `es`: the registers but INITIALIZED and
INIT_STATE are those of `s`. -/
structure Halted (s : State) (es : List Event) (t : State) : Prop where
  cursor      : t.cursor = s.cursor
  initialized : t.initialized = false
  debState    : t.debState = s.debState
  lastTag     : t.lastTag = s.lastTag
  given       : t.given = s.given
  requests    : t.requests = s.requests
  trace       : t.trace = s.trace ++ es

theorem halted_of_reached (h : Reached s es n m t) : Halted s es t :=
  ⟨h.cursor, h.initialized, h.debState, h.lastTag, h.given, h.requests, h.trace⟩

/-- If the ID is checked before transaction `n`, the chip's ID is the expected one (R333). -/
def IdGood (s : State) (n : Nat) : Prop :=
  2 < n → s.params.verifyId = true → Memory.get s.mem (regAddr s.params .id).toNat = s.params.expectedId

theorem IdGood.mono {n' : Nat} (h : IdGood s n') (hn : n ≤ n') : IdGood s n := fun h2 => h (by omega)

/-- In the sequence begun in `s`, from its transaction `n` on and with the chip's space `m`, the step `k` issues `es` and
leaves the space `m'`, or stops at the first of its transactions that fails (R338). -/
structure Gate (s : State) (n : Nat) (k : State → Run) (es : List Event) (m m' : Memory) : Prop where
  pass : ∀ {es₀ t}, Reached s es₀ n m t → QuietFor (n + txCount es) s → IdGood s (n + txCount es) →
    ∃ t', k t = .passed t' ∧ Reached s (es₀ ++ es) (n + txCount es) m' t'
  stop : ∀ {es₀ t j}, Reached s es₀ n m t → j < txCount es → QuietFor (n + j) s → (envAt s (n + j)).ok = false →
    IdGood s (n + j) → ∃ t' before e, k t = .failed .transport t' ∧ CutAt es j before e ∧
      Halted s (es₀ ++ (before ++ [failing e])) t'

/-- Gates in a row are a gate: what fails is in the first, or the first passes and it is in the second. -/
theorem Gate.andThen (g : Gate s n k es m m') (g' : Gate s (n + txCount es) k' es' m' m'') :
    Gate s n (fun t => andThen (k t) k') (es ++ es') m m'' where
  pass {es₀ t} h q hid := by
    rw [txCount_append, ← Nat.add_assoc] at q hid ⊢
    obtain ⟨t₁, he₁, h₁⟩ := g.pass h (fun i hi => q i (by omega)) (hid.mono (by omega))
    obtain ⟨t₂, he₂, h₂⟩ := g'.pass h₁ q hid
    exact ⟨t₂, by rw [he₁, andThen_passed, he₂], by rwa [← List.append_assoc]⟩
  stop {es₀ t j} h hj q hfail hid := by
    rw [txCount_append] at hj
    by_cases hfirst : j < txCount es
    · obtain ⟨t₁, before, e, he, hcut, hhalt⟩ := g.stop h hfirst q hfail hid
      exact ⟨t₁, before, e, by rw [he, andThen_failed], hcut.append_right es', hhalt⟩
    · obtain ⟨j, rfl⟩ := Nat.exists_eq_add_of_le (Nat.le_of_not_lt hfirst)
      rw [← Nat.add_assoc] at q hfail hid
      obtain ⟨t₁, he₁, h₁⟩ := g.pass h (fun i hi => q i (by omega)) (hid.mono (by omega))
      obtain ⟨t₂, before, e, he₂, hcut, hhalt⟩ := g'.stop h₁ (by omega) q hfail hid
      exact ⟨t₂, es ++ before, e, by rw [he₁, andThen_passed, he₂], hcut.append_left es,
        by simpa only [List.append_assoc] using hhalt⟩

/-- A step that issues no transaction. -/
theorem gate_of_silent {f : State → State} (hes : txCount es = 0)
    (hf : ∀ {es₀ t}, Reached s es₀ n m t → Reached s (es₀ ++ es) n m (f t)) :
    Gate s n (fun t => .passed (f t)) es m m where
  pass {es₀ t} h _ _ := ⟨f t, rfl, by rw [hes]; exact hf h⟩
  stop {es₀ t j} _ hj := absurd hj (by omega)

theorem gate_enter (i : InitState) : Gate s n (fun t => .passed (setInitState i t)) [] m m :=
  gate_of_silent rfl fun {es₀ t} h => by rw [List.append_nil]; exact h.setInitState i

theorem gate_sleep (d : Params → Nat) :
    Gate s n (fun t => .passed (sleep (d t.params) t)) [.sleep (d s.params)] m m :=
  gate_of_silent rfl fun {es₀ t} h => by rw [← h.params]; exact h.sleep _

theorem gate_settle (d : Params → Nat) (i : InitState) :
    Gate s n (fun t => .passed (setInitState i (sleep (d t.params) t))) [.sleep (d s.params)] m m :=
  gate_of_silent rfl fun {es₀ t} h => by rw [← h.params]; exact (h.sleep _).setInitState i

theorem gate_hostCommand (c : Params → Byte) :
    Gate s n (fun t => tryHostCommand (c t.params) t) [.hostCommand (c s.params) true] m m where
  pass {es₀ t} h q _ := by
    obtain ⟨hok, hchip⟩ := q n n.lt_succ_self
    have hcmd := h.hostCommand (c t.params)
    rw [hok, hchip, applyChip_nil] at hcmd
    exact ⟨hostCommand (c t.params) t, if_pos (reached_busOk h hok), h.params ▸ hcmd⟩
  stop {es₀ t j} h hj q hfail _ := by
    obtain rfl : j = 0 := Nat.lt_one_iff.mp hj
    refine ⟨hostCommand (c t.params) t, [], _, if_neg (by rw [h.busFails hfail]; decide), ⟨⟨[], rfl⟩, rfl, rfl⟩, ?_⟩
    have hcmd := halted_of_reached (h.hostCommand (c t.params))
    rw [show (envAt s n).ok = false from hfail] at hcmd
    exact h.params ▸ hcmd

theorem isTransaction_of_writeEvents {ws : List (Addr × Width × Word)} : ∀ e ∈ writeEvents ws, isTransaction e = true := by
  intro e he
  obtain ⟨x, -, rfl⟩ := List.mem_map.mp he
  rfl

theorem txCount_writeEvents (ws : List (Addr × Width × Word)) : txCount (writeEvents ws) = ws.length := by
  rw [txCount_of_all isTransaction_of_writeEvents, writeEvents, List.length_map]

theorem gate_writes (ws : Params → List (Addr × Width × Word))
    (hl : RegMapFits s.params → ∀ x ∈ ws s.params, ∀ v ok, legalEvent s.params (.write x.1 x.2.1 v ok) = true) :
    Gate s n (fun t => tryWrites (ws t.params) t) (writeEvents (ws s.params)) m (storeAll m (ws s.params)) where
  pass {es₀ t} h q _ := by
    rw [txCount_writeEvents] at q ⊢
    rw [h.params]
    exact h.writes q _ le_rfl
  stop {es₀ t j} h hj q hfail _ := by
    rw [txCount_writeEvents] at hj
    have hj' : j < (writeEvents (ws s.params)).length := by simpa [writeEvents] using hj
    obtain ⟨t', he, hcursor, hinit, hdeb, htag, hgiven, hreq, htrace⟩ :=
      h.writesStop ⟨okFor_of_quietFor q, hfail⟩ (ws s.params) hj hl
    refine ⟨t', _, _, by rw [h.params]; exact he, cutAt_of_all isTransaction_of_writeEvents hj',
      ⟨hcursor, hinit, hdeb, htag, hgiven, hreq, ?_⟩⟩
    rw [htrace]
    simp [writeEvents, failing]

/-- The events of the ID check, where the ID is the expected one (R333). -/
def idEvents (p : Params) : List Event :=
  if p.verifyId then [.read (regAddr p .id) .w8 (some (p.expectedId.setWidth 32))] else []

theorem checkId_of_off (h : s.params.verifyId = false) : checkId s = .passed s := by
  simp [checkId, h]

/-- The ID check whose read succeeds. -/
theorem checkId_of_ok (h : s.params.verifyId = true) (hok : busOk s = true) : checkId s =
    if busValue (regAddr s.params .id) .w8 s = s.params.expectedId.setWidth 32
    then .passed (afterRead (regAddr s.params .id) .w8 s)
    else .failed .verify (afterRead (regAddr s.params .id) .w8 s) := by
  rw [checkId, if_pos h, tryRead, if_pos hok]
  rfl

theorem checkId_of_fail (h : s.params.verifyId = true) (hfail : busOk s = false) :
    checkId s = .failed .transport (afterRead (regAddr s.params .id) .w8 s) := by
  rw [checkId, if_pos h, tryRead, hfail]
  rfl

/-- The ID check is transaction 2 of the sequence, before any write. -/
theorem gate_checkId (hn : n = 2) : Gate s n checkId (idEvents s.params) s.mem s.mem := by
  subst hn
  by_cases hv : s.params.verifyId = true
  swap
  · have hnone : idEvents s.params = [] := if_neg hv
    rw [hnone]
    refine ⟨fun {es₀ t} h _ _ => ⟨t, checkId_of_off (by rw [h.params]; simpa using hv), ?_⟩,
      fun {es₀ t j} _ hj => absurd hj (by simp [txCount])⟩
    rw [List.append_nil]
    exact h
  have hread : idEvents s.params = [.read (regAddr s.params .id) .w8 (some (s.params.expectedId.setWidth 32))] :=
    if_pos hv
  rw [hread]
  refine ⟨fun {es₀ t} h q hid => ?_, fun {es₀ t j} h hj q hfail _ => ?_⟩
  · obtain ⟨hok, hchip⟩ := q 2 (Nat.lt_succ_self 2)
    have hvalue := reached_busValue_byte h (regAddr s.params .id)
    have hr := reached_read_ok h (regAddr s.params .id) .w8 hok
    rw [hchip, applyChip_nil, hid (Nat.lt_succ_self 2) hv] at hvalue
    rw [hchip, applyChip_nil, hvalue] at hr
    refine ⟨afterRead (regAddr s.params .id) .w8 t, ?_, hr⟩
    rw [checkId_of_ok (by rwa [h.params]) (reached_busOk h hok), h.params, if_pos hvalue]
  · obtain rfl : j = 0 := Nat.lt_one_iff.mp hj
    refine ⟨afterRead (regAddr s.params .id) .w8 t, [], _, ?_, ⟨⟨[], rfl⟩, rfl, rfl⟩, ?_⟩
    · rw [checkId_of_fail (by rwa [h.params]) (h.busFails hfail), h.params]
    · have hr := halted_of_reached (h.read (regAddr s.params .id) .w8)
      rwa [if_neg (by rw [show (envAt s 2).ok = false from hfail]; decide)] at hr

/-! ### Steps 1 to 5 -/

theorem gate_stepReset : Gate s 0 stepReset [.hostCommand s.params.hcReset true, .sleep s.params.tReset] m m :=
  (gate_hostCommand Params.hcReset).andThen (gate_settle Params.tReset .reset)

theorem gate_stepActive : Gate s 1 stepActive
    ([.hostCommand s.params.hcActive true] ++ (([.sleep s.params.tActive] ++ idEvents s.params) ++ [])) s.mem s.mem :=
  (gate_hostCommand Params.hcActive).andThen
    (((gate_sleep Params.tActive).andThen (gate_checkId rfl)).andThen (gate_enter .active))

theorem gate_stepClock : Gate s n stepClock [.hostCommand s.params.hcClkExt true, .sleep s.params.tClk] m m :=
  (gate_hostCommand Params.hcClkExt).andThen (gate_settle Params.tClk .clockConfigured)

theorem gate_stepTiming :
    Gate s n stepTiming (writeEvents (timingWrites s.params) ++ []) m (storeAll m (timingWrites s.params)) :=
  (gate_writes timingWrites timingWrites_legal).andThen (gate_enter .timingConfigured)

theorem gate_stepDisplay :
    Gate s n stepDisplay (writeEvents (displayWrites s.params) ++ []) m (storeAll m (displayWrites s.params)) :=
  (gate_writes displayWrites displayWrites_legal).andThen (gate_enter .displayEnabled)

/-- Steps 1 to 5, each gated on the one before (R338). -/
def stepsToDisplay (s : State) : Run :=
  andThen (andThen (andThen (andThen (stepReset s) stepActive) stepClock) stepTiming) stepDisplay

theorem forcedSteps_eq (s : State) : forcedSteps s = andThen (stepsToDisplay s) stepVerify := rfl

/-- The chip's space after steps 1 to 5, the chip changing nothing itself. -/
def memToDisplay (p : Params) (m : Memory) : Memory := storeAll (storeAll m (timingWrites p)) (displayWrites p)

theorem writeEvents_timingWrites (p : Params) : writeEvents (timingWrites p) =
    [wrote (regAddr p .hcycle) .w16 p.panel.hcycle.toNat, wrote (regAddr p .hoffset) .w16 p.panel.hoffset.toNat,
     wrote (regAddr p .hsync0) .w16 p.panel.hsync0.toNat, wrote (regAddr p .hsync1) .w16 p.panel.hsync1.toNat,
     wrote (regAddr p .hsize) .w16 p.panel.hsize.toNat, wrote (regAddr p .vcycle) .w16 p.panel.vcycle.toNat,
     wrote (regAddr p .voffset) .w16 p.panel.voffset.toNat, wrote (regAddr p .vsync0) .w16 p.panel.vsync0.toNat,
     wrote (regAddr p .vsync1) .w16 p.panel.vsync1.toNat, wrote (regAddr p .vsize) .w16 p.panel.vsize.toNat,
     wrote (regAddr p .pclkPol) .w8 p.panel.pclkPol.toNat, wrote (regAddr p .swizzle) .w8 p.panel.swizzle.toNat,
     wrote (regAddr p .cspread) .w8 p.panel.cspread.toNat] := by
  simp only [writeEvents, timingWrites, List.map_cons, List.map_nil, truncTo_half, truncTo_byte, wrote]

theorem writeEvents_displayWrites (p : Params) : writeEvents (displayWrites p) =
    p.muteWrites.map (wroteEntry p) ++
    [wrote 0x100000 .w32 0x02000000, wrote 0x100004 .w32 0x26000007, wrote 0x100008 .w32 0,
     wrote (regAddr p .dlswap) .w8 p.dlswapFrame.toNat, wrote (regAddr p .gpioDir) .w8 p.gpioDirValue.toNat,
     wrote (regAddr p .gpio) .w8 p.gpioValue.toNat, wrote (regAddr p .pclk) .w8 p.pclkDiv.toNat] := by
  simp only [writeEvents, displayWrites, List.map_append, List.map_map, List.map_cons, List.map_nil, truncTo_w32,
    truncTo_byte, wrote]
  rfl

theorem forcedTraceToDisplay_eq (p : Params) : forcedTraceToDisplay p =
    [.hostCommand p.hcReset true, .sleep p.tReset] ++
      ([.hostCommand p.hcActive true] ++ (([.sleep p.tActive] ++ idEvents p) ++ [])) ++
      [.hostCommand p.hcClkExt true, .sleep p.tClk] ++ (writeEvents (timingWrites p) ++ []) ++
      (writeEvents (displayWrites p) ++ []) := by
  rw [writeEvents_timingWrites, writeEvents_displayWrites]
  simp only [forcedTraceToDisplay, idEvents, BitVec.ofNat_toNat, List.append_nil, List.append_assoc, List.cons_append,
    List.nil_append]

theorem gate_stepsToDisplay :
    Gate s 0 stepsToDisplay (forcedTraceToDisplay s.params) s.mem (memToDisplay s.params s.mem) := by
  rw [forcedTraceToDisplay_eq]
  exact (((gate_stepReset.andThen gate_stepActive).andThen gate_stepClock).andThen gate_stepTiming).andThen
    gate_stepDisplay

theorem txCount_forcedTraceToDisplay (p : Params) : txCount (forcedTraceToDisplay p) = forcedTransactions p - 2 := by
  have hid : txCount (idEvents p) = if p.verifyId then 1 else 0 := by
    unfold idEvents
    split <;> rfl
  rw [forcedTraceToDisplay_eq]
  simp only [txCount_append, txCount_hostCommand, txCount_sleep, txCount_nil, txCount_writeEvents, hid, forcedTransactions, timingWrites, displayWrites,
    List.length_append, List.length_map, List.length_cons, List.length_nil]
  omega

end Sys2Proof.Proofs

/-! PROOFS. The ends of INIT_FORCED (R337 to R339): what the two readbacks of step 6 decide, what an echoing chip answers
them, and the unmute writes. -/

namespace Sys2Proof.Proofs

open Sys2Proof.Machine Sys2Proof.Laws Sys2Proof.Safety

variable {s t : State} {es : List Event} {n : Nat} {m : Memory} {c : Cause} {p : Params}

/-! ### How the sequence ends -/

theorem exec_initForced_of_failed (h : forcedSteps (startInit s) = .failed c t) :
    exec .initForced s = .next (respond (.fail c) .none (setInitState .failed t)) := by
  rw [exec_initForced, h]
  rfl

theorem exec_initForced_of_passed (h : forcedSteps (startInit s) = .passed t) :
    exec .initForced s = .next (respond .ok .none t) := by
  rw [exec_initForced, h]
  rfl

theorem forcedSteps_of_passed (h : stepsToDisplay s = .passed t) : forcedSteps s = stepVerify t := by
  rw [forcedSteps_eq, h, andThen_passed]

theorem forcedSteps_of_failed (h : stepsToDisplay s = .failed c t) : forcedSteps s = .failed c t := by
  rw [forcedSteps_eq, h, andThen_failed]

/-- Steps 1 to 5 on a quiet chip with the expected ID. -/
theorem stepsToDisplay_passes (q : QuietFor (forcedTransactions s.params - 2) s)
    (hid : IdGood s (forcedTransactions s.params - 2)) :
    ∃ t, stepsToDisplay (startInit s) = .passed t ∧ Reached s (forcedTraceToDisplay s.params)
      (forcedTransactions s.params - 2) (memToDisplay s.params s.mem) t := by
  have hpass := (gate_stepsToDisplay (s := s)).pass (reached_start s)
  rw [txCount_forcedTraceToDisplay, Nat.zero_add, List.nil_append] at hpass
  exact hpass q hid

/-- Steps 1 to 5 where one of their transactions fails. -/
theorem stepsToDisplay_stops (hn : n < forcedTransactions s.params - 2) (q : QuietFor n s)
    (hfail : (envAt s n).ok = false) (hid : IdGood s n) :
    ∃ t before e, stepsToDisplay (startInit s) = .failed .transport t ∧
      CutAt (forcedTraceToDisplay s.params) n before e ∧ Halted s (before ++ [failing e]) t := by
  have hstop := (gate_stepsToDisplay (s := s)).stop (j := n) (reached_start s)
  rw [txCount_forcedTraceToDisplay, Nat.zero_add] at hstop
  exact hstop hn q hfail hid

/-! ### The ID check -/

theorem andThen_assoc (r : Run) (k k' : State → Run) :
    andThen (andThen r k) k' = andThen r fun s => andThen (k s) k' := by
  cases r <;> rfl

theorem stepActive_eq (s : State) : stepActive s =
    andThen (andThen (tryHostCommand s.params.hcActive s) fun s => .passed (sleep s.params.tActive s)) fun s =>
      andThen (checkId s) fun s => .passed (setInitState .active s) := by
  rw [andThen_assoc]
  rfl

/-- A failure of step 2 ends the sequence. -/
theorem forcedSteps_of_stepActive_failed {u : State} (hreset : stepReset s = .passed u)
    (hactive : stepActive u = .failed c t) : forcedSteps s = .failed c t := by
  simp only [forcedSteps, hreset, hactive, andThen_passed, andThen_failed]

/-- Settles O41: two host commands pass, and the ID read stops step 2. -/
theorem initForcedAbortsOnAWrongId : Obligations.InitForcedAbortsOnAWrongId := by
  intro s hv q hwrong
  have quiet : ∀ i ≤ 3, QuietFor i s := fun i hi j hj => q j (by omega)
  have early : ∀ i ≤ 2, IdGood s i := fun i hi h => absurd h (by omega)
  obtain ⟨t₁, he₁, h₁⟩ := gate_stepReset.pass (reached_start s) (quiet 1 (by decide)) (early 1 (by decide))
  obtain ⟨t₂, he₂, h₂⟩ := ((gate_hostCommand Params.hcActive).andThen (gate_sleep Params.tActive)).pass h₁
    (quiet 2 (by decide)) (early 2 (by decide))
  replace h₂ : Reached s [.hostCommand s.params.hcReset true, .sleep s.params.tReset,
    .hostCommand s.params.hcActive true, .sleep s.params.tActive] 2 s.mem t₂ := h₂
  obtain ⟨hok, hchip⟩ := q 2 (by decide)
  have hvalue := reached_busValue_byte h₂ (regAddr s.params .id)
  have h₃ := reached_read_ok h₂ (regAddr s.params .id) .w8 hok
  rw [hchip, applyChip_nil] at hvalue h₃
  rw [hvalue] at h₃
  have hactive : stepActive t₁ = .failed .verify (afterRead (regAddr s.params .id) .w8 t₂) := by
    rw [stepActive_eq, he₂, andThen_passed, checkId_of_ok (by rwa [h₂.params]) (reached_busOk h₂ hok), h₂.params,
      if_neg (by rw [hvalue, setWidth_byte_inj]; exact hwrong), andThen_failed]
  exact ⟨_, exec_initForced_of_failed (forcedSteps_of_stepActive_failed he₁ hactive), rfl, rfl, h₃.initialized,
    h₃.cursor, h₃.debState, h₃.lastTag, h₃.given, h₃.requests, h₃.mem, h₃.trace⟩

/-! ### The readbacks of step 6 -/

/-- The events of the two readbacks, with the bytes they yield. -/
def readbackEvents (p : Params) (g v : Byte) : List Event :=
  [.read (regAddr p .gpio) .w8 (some (g.setWidth 32)), .read (regAddr p .pclk) .w8 (some (v.setWidth 32))]

/-- The state after both readbacks. -/
def afterReadbacks (p : Params) (s : State) : State :=
  afterRead (regAddr p .pclk) .w8 (afterRead (regAddr p .gpio) .w8 s)

/-- The state in which the unmute writes begin: the session valid, the cursor 0. -/
def beforeUnmute (p : Params) (s : State) : State := setCursor 0 (setInitialized (afterReadbacks p s))

theorem stepVerify_of_gpio_failed (h : busOk s = false) :
    stepVerify s = .failed .transport (afterRead (regAddr s.params .gpio) .w8 s) := by
  rw [stepVerify, tryRead, h]
  rfl

theorem stepVerify_of_pclk_failed (hok : busOk s = true)
    (h : busOk (afterRead (regAddr s.params .gpio) .w8 s) = false) :
    stepVerify s = .failed .transport (afterReadbacks s.params s) := by
  rw [stepVerify, tryRead, hok, if_pos rfl, tryRead, h]
  rfl

/-- Step 6 where both readbacks succeed (R337). -/
theorem stepVerify_of_ok (hok : busOk s = true) (hok' : busOk (afterRead (regAddr s.params .gpio) .w8 s) = true) :
    stepVerify s =
      if gpioShowsDisplay s.params (busValue (regAddr s.params .gpio) .w8 s) &&
        pclkShowsDivisor s.params (busValue (regAddr s.params .pclk) .w8 (afterRead (regAddr s.params .gpio) .w8 s))
      then .passed (setInitState .verified (unmute s.params.unmuteWrites (beforeUnmute s.params s)))
      else .failed .verify (afterReadbacks s.params s) := by
  rw [stepVerify, tryRead, hok, if_pos rfl, tryRead, hok', if_pos rfl]
  rfl

/-- The bytes that the readbacks yield, in a state with the chip's space `m` before transaction `n`. -/
theorem stepVerify_readbacks (h : Reached s es n m t) (hok : (envAt s n).ok = true) (hok' : (envAt s (n + 1)).ok = true)
    {g v : Byte} (hg : Memory.get (Memory.applyChip m (envAt s n).chip) (regAddr s.params .gpio).toNat = g)
    (hv : Memory.get (Memory.applyChip (Memory.applyChip m (envAt s n).chip) (envAt s (n + 1)).chip)
      (regAddr s.params .pclk).toNat = v) :
    (stepVerify t = if g &&& s.params.gpioDispMask = s.params.gpioDispMask ∧ v = s.params.pclkDiv
      then .passed (setInitState .verified (unmute s.params.unmuteWrites (beforeUnmute s.params t)))
      else .failed .verify (afterReadbacks s.params t)) ∧
    Reached s (es ++ readbackEvents s.params g v) (n + 2)
      (Memory.applyChip (Memory.applyChip m (envAt s n).chip) (envAt s (n + 1)).chip) (afterReadbacks s.params t) := by
  have hgpio := reached_busValue_byte h (regAddr s.params .gpio)
  have h₁ := reached_read_ok h (regAddr s.params .gpio) .w8 hok
  have hpclk := reached_busValue_byte h₁ (regAddr s.params .pclk)
  have h₂ := reached_read_ok h₁ (regAddr s.params .pclk) .w8 hok'
  rw [hg] at hgpio
  rw [hv] at hpclk
  rw [hgpio, hpclk, List.append_assoc] at h₂
  refine ⟨?_, h₂⟩
  rw [stepVerify_of_ok (reached_busOk h hok) (by rw [h.params]; exact reached_busOk h₁ hok'), h.params, hgpio, hpclk,
    gpioShowsDisplay_byte, pclkShowsDivisor_byte]
  simp only [Bool.and_eq_true, decide_eq_true_eq]

/-- Settles O43: the readbacks pass the check exactly as `stepVerify_readbacks` says. -/
theorem initForcedChecksTheDisplayReadback : Obligations.InitForcedChecksTheDisplayReadback := by
  rintro s g v _ hok q hid rfl hg hv hbad
  have hN : forcedTransactions s.params - 2 + 1 = forcedTransactions s.params - 1 := by unfold forcedTransactions; omega
  have hpos : 0 < forcedTransactions s.params := by unfold forcedTransactions; omega
  obtain ⟨t, he, h⟩ := stepsToDisplay_passes q fun _ => hid
  obtain ⟨hverify, h'⟩ := stepVerify_readbacks (v := v) h (hok _ (by omega)) (hok _ (by omega)) hg.symm
    (by rw [hN]; exact hv.symm)
  rw [if_neg (not_and_or.mpr hbad)] at hverify
  exact ⟨_, exec_initForced_of_failed ((forcedSteps_of_passed he).trans hverify), rfl, rfl, h'.initialized, h'.cursor,
    h'.debState, h'.lastTag, h'.given, h'.requests, h'.trace⟩

/-! ### An echoing chip -/

theorem leBytes_byte (b : Byte) : leBytes (widthBytes .w8) (b.setWidth 32) = [b] := by
  simp [leBytes, widthBytes]

theorem get_store_byte_same (m : Memory) (a : Addr) (b : Byte) :
    Memory.get (Memory.store m a.toNat (leBytes (widthBytes .w8) (b.setWidth 32))) a.toNat = b := by
  rw [leBytes_byte]
  exact get_store_inside m a.toNat [b] 0 (by simp) a.isLt

theorem displayWrites_ends (p : Params) : ∃ ws, displayWrites p =
    ws ++ [(regAddr p .gpio, .w8, p.gpioValue.setWidth 32), (regAddr p .pclk, .w8, p.pclkDiv.setWidth 32)] :=
  ⟨p.muteWrites.map (regWrite p) ++
    [(BitVec.ofNat 24 ramDlBase, .w32, 0x02000000),
     (BitVec.ofNat 24 (ramDlBase + 4), .w32, 0x26000007),
     (BitVec.ofNat 24 (ramDlBase + 8), .w32, 0x00000000),
     (regAddr p .dlswap, .w8, p.dlswapFrame.setWidth 32),
     (regAddr p .gpioDir, .w8, p.gpioDirValue.setWidth 32)], by
    rw [displayWrites, List.append_assoc]
    rfl⟩

/-- After steps 1 to 5 a quiet chip holds the GPIO value and the pixel-clock divisor (R336). -/
theorem memToDisplay_echo (hp : RegMapFits p) (m : Memory) :
    Memory.get (memToDisplay p m) (regAddr p .gpio).toNat = p.gpioValue ∧
      Memory.get (memToDisplay p m) (regAddr p .pclk).toNat = p.pclkDiv := by
  obtain ⟨ws, hws⟩ := displayWrites_ends p
  have happart := regMapFits_apart hp (show Reg.gpio ≠ Reg.pclk by decide)
  rw [memToDisplay, hws, storeAll_append, storeAll_cons, storeAll_cons]
  refine ⟨?_, get_store_byte_same _ _ _⟩
  refine (get_store_outside _ _ _ ?_ ?_).trans (get_store_byte_same _ _ _)
  · rw [leBytes_byte]
    exact (regAddr p .pclk).isLt
  · rw [leBytes_byte]
    simp only [List.length_singleton]
    omega

/-- The full trace of the sequence before unmuting, on an echoing chip. -/
def forcedTrace (p : Params) : List Event := forcedTraceToDisplay p ++ readbackEvents p p.gpioValue p.pclkDiv

/-- A sequence that halts at a cut of its full trace ends Failed, with the trace up to the failing transaction (R339). -/
theorem exec_initForced_of_cut {before : List Event} {e : Event} (he : forcedSteps (startInit s) = .failed .transport t)
    (hcut : CutAt (forcedTrace s.params) n before e) (h : Halted s (before ++ [failing e]) t) :
    ∃ (t : State) (before after : List Event) (e : Event), exec .initForced s = .next t ∧
      t.response = some ⟨.fail .transport, .none⟩ ∧ t.initState = .failed ∧ t.initialized = false ∧
      t.cursor = s.cursor ∧ t.debState = s.debState ∧ t.lastTag = s.lastTag ∧ t.given = s.given ∧
      t.requests = s.requests ∧ forcedTrace s.params = before ++ e :: after ∧ isTransaction e = true ∧
      txCount before = n ∧ t.trace = s.trace ++ (before ++ [failing e]) := by
  obtain ⟨⟨after, hafter⟩, htx, hcount⟩ := hcut
  exact ⟨_, before, after, e, exec_initForced_of_failed he, rfl, rfl, h.initialized, h.cursor, h.debState, h.lastTag,
    h.given, h.requests, hafter, htx, hcount, h.trace⟩

/-- Settles O42: the failing transaction is one of steps 1 to 5, the GPIO read or the pixel-clock read. -/
theorem initForcedStopsAtTheFirstFailedTransaction : Obligations.InitForcedStopsAtTheFirstFailedTransaction := by
  intro s n hp q hfail hn hid
  have hcount := txCount_forcedTraceToDisplay s.params
  by_cases hsteps : n < forcedTransactions s.params - 2
  · obtain ⟨t, before, e, he, hcut, h⟩ := stepsToDisplay_stops hsteps q hfail hid
    exact exec_initForced_of_cut (forcedSteps_of_failed he) (hcut.append_right _) h
  obtain ⟨t, he, h⟩ := stepsToDisplay_passes (fun i hi => q i (by omega)) (IdGood.mono hid (by omega))
  obtain ⟨hgpio, -⟩ := memToDisplay_echo hp s.mem
  obtain hread | hread : n = forcedTransactions s.params - 2 ∨ n = forcedTransactions s.params - 2 + 1 := by omega
  · rw [hread] at hfail
    have h' := halted_of_reached (h.read (regAddr s.params .gpio) .w8)
    rw [if_neg (by rw [hfail]; decide)] at h'
    refine exec_initForced_of_cut (before := forcedTraceToDisplay s.params) (e := .read (regAddr s.params .gpio) .w8 _)
      ((forcedSteps_of_passed he).trans (stepVerify_of_gpio_failed (h.busFails hfail)))
      ⟨⟨_, rfl⟩, rfl, hcount.trans hread.symm⟩ ?_
    rw [h.params]
    exact h'
  · rw [hread] at hfail
    obtain ⟨hok, hchip⟩ := q (forcedTransactions s.params - 2) (by omega)
    have hvalue := reached_busValue_byte h (regAddr s.params .gpio)
    have h₁ := reached_read_ok h (regAddr s.params .gpio) .w8 hok
    rw [hchip, applyChip_nil, hgpio] at hvalue
    rw [hvalue] at h₁
    have h' := halted_of_reached (h₁.read (regAddr s.params .pclk) .w8)
    rw [if_neg (by rw [hfail]; decide)] at h'
    refine exec_initForced_of_cut (before := forcedTraceToDisplay s.params ++
        [.read (regAddr s.params .gpio) .w8 (some (s.params.gpioValue.setWidth 32))])
      (e := .read (regAddr s.params .pclk) .w8 (some (s.params.pclkDiv.setWidth 32)))
      ((forcedSteps_of_passed he).trans (stepVerify_of_pclk_failed (reached_busOk h hok) (by
        rw [h.params]
        exact h₁.busFails hfail)))
      ⟨⟨[], by simp [forcedTrace, readbackEvents]⟩, rfl, by rw [txCount_append, hcount, hread]; rfl⟩ ?_
    rw [h.params]
    exact h'

/-! ### The unmute writes -/

theorem unmute_cons_of_ok (h : busOk s = true) (r : RegWrite) (rs : List RegWrite) :
    unmute (r :: rs) s = unmute rs (busWrite (regAddr s.params r.reg) r.width r.value s) := if_pos h

theorem unmute_cons_of_fail (h : busOk s = false) (r : RegWrite) (rs : List RegWrite) :
    unmute (r :: rs) s = busWrite (regAddr s.params r.reg) r.width r.value s := if_neg (by rw [h]; decide)

theorem unmute_trace_ok (rs : List RegWrite) (s : State) (h : OkFor rs.length s) :
    (unmute rs s).trace = s.trace ++ rs.map (wroteEntry s.params) := by
  induction rs generalizing s with
  | nil => simp [unmute]
  | cons r rs ih =>
    have hok := busOk_of_okFor h
    rw [unmute_cons_of_ok hok, ih _ (okFor_of_shift (envAt_busWrite _ _ _ s) h), busWrite_trace, busWrite_params, hok]
    simp [wroteEntry]

theorem unmute_trace_failsAt (rs : List RegWrite) (s : State) (j : Nat) (hj : j < rs.length) (h : FailsAt j s) :
    (unmute rs s).trace = s.trace ++
      ((rs.take j).map (wroteEntry s.params) ++ [failing (wroteEntry s.params rs[j])]) := by
  induction rs generalizing s j with
  | nil => simp at hj
  | cons r rs ih =>
    cases j with
    | zero =>
      have hfail := busOk_of_failsAt_zero h
      rw [unmute_cons_of_fail hfail, busWrite_trace, hfail]
      simp [wroteEntry, failing]
    | succ j =>
      have hok := busOk_of_okFor h.1
      rw [unmute_cons_of_ok hok, ih _ j (by simpa using hj) (failsAt_of_shift (envAt_busWrite _ _ _ s) h),
        busWrite_trace, busWrite_params, hok]
      simp [wroteEntry]

/-- Settles O40: the readbacks of an echoing chip pass the check, and what the unmute writes issue is one of two lists. -/
theorem initForcedVerifiesAnEchoingChip : Obligations.InitForcedVerifiesAnEchoingChip := by
  intro s hp q hid hmask
  have hN : forcedTransactions s.params - 2 + 2 = forcedTransactions s.params := by unfold forcedTransactions; omega
  obtain ⟨t, he, h⟩ := stepsToDisplay_passes (fun i hi => q i (by omega)) fun _ => hid
  obtain ⟨hgpio, hpclk⟩ := memToDisplay_echo hp s.mem
  obtain ⟨hok, hchip⟩ := q (forcedTransactions s.params - 2) (by omega)
  obtain ⟨hok', hchip'⟩ := q (forcedTransactions s.params - 2 + 1) (by omega)
  obtain ⟨hverify, h'⟩ := stepVerify_readbacks (g := s.params.gpioValue) (v := s.params.pclkDiv) h hok hok'
    (by rw [hchip]; exact hgpio) (by rw [hchip, hchip']; exact hpclk)
  rw [if_pos ⟨hmask, rfl⟩] at hverify
  rw [hN] at h'
  obtain ⟨⟨hcursor, hinit, -, hdeb, htag, hgiven⟩, -, hreq, -, es, htrace, -⟩ :=
    onlyBus_unmute s.params.unmuteWrites (beforeUnmute s.params t)
  have htrace' : (beforeUnmute s.params t).trace = s.trace ++ forcedTrace s.params := h'.trace
  have hparams : (beforeUnmute s.params t).params = s.params := h'.params
  have hahead : ∀ k, envAt (beforeUnmute s.params t) k = envAt s (forcedTransactions s.params + k) := fun k => by
    rw [Nat.add_comm]
    exact h'.ahead k
  refine ⟨_, es, exec_initForced_of_passed ((forcedSteps_of_passed he).trans hverify), rfl, rfl, hinit, hcursor,
    hdeb.trans h'.debState, htag.trans h'.lastTag, hgiven.trans h'.given, hreq.trans h'.requests, ?_, ?_, ?_⟩
  · exact htrace.trans (by rw [htrace', List.append_assoc]; rfl)
  · intro hall
    refine List.append_cancel_left (htrace.symm.trans ?_)
    rw [unmute_trace_ok _ _ fun k hk => by rw [hahead]; exact hall _ (by omega), hparams]
  · intro j hj hfails
    refine List.append_cancel_left (htrace.symm.trans ?_)
    rw [unmute_trace_failsAt _ _ j hj ⟨fun k hk => by rw [hahead]; exact hfails.1 _ (by omega),
      by rw [hahead]; exact hfails.2⟩, hparams]

end Sys2Proof.Proofs
